-- ==== Sys2Proof/Word.lean ====
section
/-! DEFINITION. The machine word: one command word, one access of the host port (00_scope.md R8). -/

namespace Sys2Proof

/-- A 32-bit word of the host port (00_scope.md R8, 20_memory.md R70). -/
abbrev Word := BitVec 32

end Sys2Proof
end

