-- ==== Sys2Proof/Syntax.lean ====
section
/-! DEFINITION. The commands of the codec core (30_encoding.md R100-R103): one constructor for each row of
spec/opcode_table.json. Operands stand as the encoding holds them. -/

namespace Sys2Proof

/-- A telegram format (00_scope.md R6). The field F selects it: 0 SHORT, 1 LONG (30_encoding.md R102). -/
inductive Fmt where
  | short
  | long
deriving DecidableEq, Repr, Inhabited

/-- The 28 commands, in the order of spec/opcode_table.json. -/
inductive Instr where
  /-- NOP: complete without effect (43_control.md R230). -/
  | nop
  /-- SRESET: soft reset (43_control.md R231). -/
  | sreset
  /-- CLRIN: clear the input stream (43_control.md R232). -/
  | clrin
  /-- DECODE: the whole decoder (41_decode.md R160). -/
  | decode
  /-- DETECT: format from the input length (41_decode.md R161). -/
  | detect
  /-- WINDOW: the tail window (41_decode.md R162). -/
  | window
  /-- GCHECK: divisibility by g (41_decode.md R164). -/
  | gcheck
  /-- FSYND: the syndrome against f (41_decode.md R165). -/
  | fsynd
  /-- SUBST: shift lookup and realignment (41_decode.md R167). -/
  | subst
  /-- VALID: control fields and codewords (41_decode.md R168). -/
  | valid
  /-- INVERT: complement the candidate (41_decode.md R170). -/
  | invert
  /-- DESCR: descramble the words (41_decode.md R172). -/
  | descr
  /-- FINAL: undo the checksum, write the payload (41_decode.md R174). -/
  | final
  /-- ENCODE fmt: the whole encoder (42_encode.md R190). -/
  | encode (fmt : Fmt)
  /-- ESTART fmt: start a search (42_encode.md R191). -/
  | estart (fmt : Fmt)
  /-- ADVANCE: the next self-synchronizing pair (42_encode.md R193). -/
  | advance
  /-- PREP: checksum, scramble, expand (42_encode.md R194). -/
  | prep
  /-- ASSEMBLE: the candidate and its check bits (42_encode.md R197). -/
  | assemble
  /-- CALPHA: the alphabet condition (42_encode.md R200). -/
  | calpha
  /-- CAPER: the aperiodicity condition (42_encode.md R202). -/
  | caper
  /-- COFFS: the off-synch condition (42_encode.md R204). -/
  | coffs
  /-- CUNDER: the undersampling condition (42_encode.md R207). -/
  | cunder
  /-- EMIT: pad to the transmission width (42_encode.md R208). -/
  | emit
  /-- SUBENC v: forward lookup of IMM[9:0] (40_units.md R127). -/
  | subenc (v : BitVec 10)
  /-- SUBDEC w: reverse lookup of IMM[10:0] (40_units.md R128). -/
  | subdec (w : BitVec 11)
  /-- SCRSEED fmt, sb: seed the scrambler (40_units.md R133). -/
  | scrseed (fmt : Fmt) (sb : BitVec 12)
  /-- SCRSTEP b: one scrambler step with feedback bit IMM[0] (40_units.md R134). -/
  | scrstep (b : Bool)
  /-- POLYREM fmt, sel: remainder by the polynomial SEL selects (40_units.md R135). SEL = 3 is reserved. -/
  | polyrem (fmt : Fmt) (sel : BitVec 2)
deriving DecidableEq, Repr

/-- What the outside does to the block, one event at a time (10_state.md R30, 20_memory.md R88, 70_reset_and_hazards.md
R270). Offsets are byte offsets from BASE. A host that branches on what it reads performs, in any one run, such a list. -/
inductive HostEvent where
  /-- MemRead(off, 4) (20_memory.md R71). -/
  | read (off : Nat)
  /-- MemWrite(off, 4, v) (20_memory.md R72). -/
  | write (off : Nat) (v : Word)
  /-- WAIT: read STATUS until BUSY reads 0 (30_encoding.md R108). -/
  | waitIdle
  /-- Wait until IRQ is 1 (20_memory.md R82, 60_exceptions.md R250). -/
  | waitIrq
  /-- The platform's external reset (70_reset_and_hazards.md R270). -/
  | externalReset
deriving DecidableEq, Repr

end Sys2Proof
end

