-- ==== Sys2Proof/Decode.lean ====
section
/-! DEFINITION. The command decoder and encoder (30_encoding.md R100-R105). The decoder is total and rejects by name. -/

namespace Sys2Proof

/-- The seven command formats (30_encoding.md R101). -/
inductive CmdFormat where
  | n
  | nf
  | i10
  | i11
  | i1
  | fi12
  | fs
deriving DecidableEq, Repr

/-- Why a command word is ILLEGAL (30_encoding.md R104, R105). -/
inductive DecodeError where
  /-- No row of R103 has this opcode. -/
  | unassignedOpcode
  /-- A bit the row's format requires to be 0 is 1. -/
  | reservedBitSet
  /-- SEL = 3 in format FS. -/
  | reservedSelector
deriving DecidableEq, Repr

/-- OPC, bits 31..24 (R100). -/
def fieldOpc (w : Word) : BitVec 8 := w.extractLsb' 24 8

/-- F, bit 23 (R100): 0 SHORT, 1 LONG (R102). -/
def fieldFmt (w : Word) : Fmt := if w.getLsbD 23 then .long else .short

/-- SEL, bits 22..21 (R100). -/
def fieldSel (w : Word) : BitVec 2 := w.extractLsb' 21 2

/-- IMM[k-1:0], the low k bits of bits 11..0 (R100, R102). -/
def fieldImm (k : Nat) (w : Word) : BitVec k := w.extractLsb' 0 k

/-- The bits each format requires to be 0 (R101). -/
def mustBeZero : CmdFormat → Word
  | .n => 0x00FFFFFF
  | .nf => 0x007FFFFF
  | .i10 => 0x00FFFC00
  | .i11 => 0x00FFF800
  | .i1 => 0x00FFFFFE
  | .fi12 => 0x007FF000
  | .fs => 0x001FFFFF

/-- The opcode map (R103): the row's format, and its command with the operands of the word w. -/
def opcodeRow (w : Word) : Option (CmdFormat × Instr) :=
  match (fieldOpc w).toNat with
  | 0x00 => some (.n, .nop)
  | 0x01 => some (.n, .sreset)
  | 0x02 => some (.n, .clrin)
  | 0x10 => some (.n, .decode)
  | 0x11 => some (.n, .detect)
  | 0x12 => some (.n, .window)
  | 0x13 => some (.n, .gcheck)
  | 0x14 => some (.n, .fsynd)
  | 0x15 => some (.n, .subst)
  | 0x16 => some (.n, .valid)
  | 0x17 => some (.n, .invert)
  | 0x18 => some (.n, .descr)
  | 0x19 => some (.n, .final)
  | 0x20 => some (.nf, .encode (fieldFmt w))
  | 0x21 => some (.nf, .estart (fieldFmt w))
  | 0x22 => some (.n, .advance)
  | 0x23 => some (.n, .prep)
  | 0x24 => some (.n, .assemble)
  | 0x25 => some (.n, .calpha)
  | 0x26 => some (.n, .caper)
  | 0x27 => some (.n, .coffs)
  | 0x28 => some (.n, .cunder)
  | 0x29 => some (.n, .emit)
  | 0x30 => some (.i10, .subenc (fieldImm 10 w))
  | 0x31 => some (.i11, .subdec (fieldImm 11 w))
  | 0x32 => some (.fi12, .scrseed (fieldFmt w) (fieldImm 12 w))
  | 0x33 => some (.i1, .scrstep (w.getLsbD 0))
  | 0x34 => some (.fs, .polyrem (fieldFmt w) (fieldSel w))
  | _ => none

/-- Command decoding (R104). -/
def decode (w : Word) : Except DecodeError Instr :=
  match opcodeRow w with
  | none => .error .unassignedOpcode
  | some (f, i) =>
    if w &&& mustBeZero f ≠ 0 then .error .reservedBitSet
    else if f = .fs ∧ fieldSel w = 3 then .error .reservedSelector
    else .ok i

/-- F as the encoding holds it (R102). -/
def fmtBit : Fmt → BitVec 1
  | .short => 0
  | .long => 1

/-- A command word from its fields; RSV is 0 (R100). -/
def commandWord (opc : BitVec 8) (f : BitVec 1) (sel : BitVec 2) (imm : BitVec 12) : Word :=
  opc ++ f ++ sel ++ (0 : BitVec 9) ++ imm

/-- The command word of an instruction (R101-R103, R107). -/
def encode : Instr → Word
  | .nop => commandWord 0x00 0 0 0
  | .sreset => commandWord 0x01 0 0 0
  | .clrin => commandWord 0x02 0 0 0
  | .decode => commandWord 0x10 0 0 0
  | .detect => commandWord 0x11 0 0 0
  | .window => commandWord 0x12 0 0 0
  | .gcheck => commandWord 0x13 0 0 0
  | .fsynd => commandWord 0x14 0 0 0
  | .subst => commandWord 0x15 0 0 0
  | .valid => commandWord 0x16 0 0 0
  | .invert => commandWord 0x17 0 0 0
  | .descr => commandWord 0x18 0 0 0
  | .final => commandWord 0x19 0 0 0
  | .encode fmt => commandWord 0x20 (fmtBit fmt) 0 0
  | .estart fmt => commandWord 0x21 (fmtBit fmt) 0 0
  | .advance => commandWord 0x22 0 0 0
  | .prep => commandWord 0x23 0 0 0
  | .assemble => commandWord 0x24 0 0 0
  | .calpha => commandWord 0x25 0 0 0
  | .caper => commandWord 0x26 0 0 0
  | .coffs => commandWord 0x27 0 0 0
  | .cunder => commandWord 0x28 0 0 0
  | .emit => commandWord 0x29 0 0 0
  | .subenc v => commandWord 0x30 0 0 (v.setWidth 12)
  | .subdec w => commandWord 0x31 0 0 (w.setWidth 12)
  | .scrseed fmt sb => commandWord 0x32 (fmtBit fmt) 0 sb
  | .scrstep b => commandWord 0x33 0 0 ((BitVec.ofBool b).setWidth 12)
  | .polyrem fmt sel => commandWord 0x34 (fmtBit fmt) sel 0

/-- The instruction the decoder reads from a table row's word: the low nbits bits of w are the word, every bit above them is
0; a number that needs more than 32 bits is no command word (R100: one length). -/
def decodeTableWord (nbits w : Nat) : Option Instr :=
  if w % 2 ^ nbits < 2 ^ 32 then (decode (BitVec.ofNat 32 (w % 2 ^ nbits))).toOption else none

end Sys2Proof
end

