-- ==== Sys2Proof/Machine/Gf2.lean ====
section
/-! DEFINITION. The GF(2) divider (00_scope.md R15, 40_units.md R122-R124). A polynomial is a natural number whose bit
i is the coefficient of x^i. -/

namespace Sys2Proof.Machine

/-- The GF(2) (carry-less) product a ⊗ b (R15). -/
def clmul (a b : Nat) : Nat :=
  (List.range (a.log2 + 1)).foldl (fun acc i => if a.testBit i then acc ^^^ (b <<< i) else acc) 0

/-- deg(p) ≤ d, with deg(0) = −∞ (R15). -/
def degLe (p d : Nat) : Prop := p < 2 ^ (d + 1)

/-- R122's loop: while R ≠ 0 and deg(R) ≥ deg(P), subtract P shifted up to R's top bit. Each turn lowers the degree of R,
so deg(A) + 1 turns always suffice. -/
def polyReduce (p : Nat) : Nat → Nat → Nat
  | 0, r => r
  | fuel + 1, r =>
    if r ≠ 0 ∧ p.log2 ≤ r.log2 then polyReduce p fuel (r ^^^ (p <<< (r.log2 - p.log2))) else r

/-- PolyMod(A, P) (R122): the remainder and the flag DZ of a degenerate divisor. -/
def polyMod (a p : Nat) : Nat × Bool :=
  if p = 0 then (0, true) else (polyReduce p (a.log2 + 1) a, false)

end Sys2Proof.Machine
end

