-- ==== Sys2Proof/Config.lean ====
section
/-! DEFINITION. The configuration of the block (00_scope.md R9, R10) and the values the spec leaves free. The spec gives
no table's contents: they are parameters, held here as one opaque record of which only R10 is known. -/

namespace Sys2Proof

/-- P10 SCR_FB: which bit the scrambler feeds back (00_scope.md R9, 90_conflicts.md C4). -/
inductive Feedback where
  | cipher
  | plain
deriving DecidableEq, Repr, Inhabited

/-- The default of P8 SCR_INIT: SCR[31:0] = S, SCR[32] = 0 (40_units.md R130). -/
def defaultScrInit (seed : BitVec 32) : BitVec 33 := seed.setWidth 33

/-- The configuration record (00_scope.md R9 P1-P11; 92 open parameters BASE and IRQ_LINE). -/
structure Config where
  /-- P1 F_POLY. -/
  fPoly : Fmt → Nat
  /-- P2 G_POLY. -/
  gPoly : Fmt → Nat
  /-- P3 FG_POLY. -/
  fgPoly : Fmt → Nat
  /-- P4 SUB_ENC, 1024 entries. -/
  subEnc : BitVec 10 → BitVec 11
  /-- P5 SUB_DEC, 2048 entries; none is INVALID. -/
  subDec : BitVec 11 → Option (BitVec 10)
  /-- P6 SYN_IDX, 65536 entries per format; none is INVALID. -/
  synIdx : Fmt → BitVec 16 → Option Nat
  /-- P7 SCR_MULT. -/
  scrMult : Fmt → BitVec 32
  /-- P8 SCR_INIT. -/
  scrInit : BitVec 32 → BitVec 33 := defaultScrInit
  /-- P9 SCR_ADV. -/
  scrAdv : BitVec 33 → Bool → BitVec 33
  /-- P10 SCR_FB. -/
  scrFb : Feedback := .cipher
  /-- P11 OS_MAX, read at offsets 0 to 10 only. -/
  osMax : Fmt → Nat → BitVec 8
  /-- BASE: where the platform puts the register port (20_memory.md R70). -/
  base : Nat
  /-- IRQ_LINE: the platform interrupt input that IRQ drives (60_exceptions.md R250). -/
  irqLine : Nat
deriving Inhabited

/-- A well-formed configuration (00_scope.md R10; BASE's alignment is that of 92's open parameters). -/
structure Config.WellFormed (c : Config) : Prop where
  product : ∀ f, c.fgPoly f = Machine.clmul (c.fPoly f) (c.gPoly f)
  fgDegree : ∀ f, Machine.degLe (c.fgPoly f) 85
  fDegree : ∀ f, Machine.degLe (c.fPoly f) 16
  multOdd : ∀ f, (c.scrMult f).getLsbD 0 = true
  decEnc : ∀ v, c.subDec (c.subEnc v) = some v
  baseAligned : c.base % 4096 = 0

/-- One small well-formed configuration. It only shows that well-formed configurations exist (so that the opaque one below
may be declared); the block is NOT configured with it. -/
def Config.sample : Config :=
  { fPoly := fun _ => 0, gPoly := fun _ => 0, fgPoly := fun _ => 0, subEnc := fun v => v.setWidth 11,
    subDec := fun w => some (w.setWidth 10), synIdx := fun _ _ => none, scrMult := fun _ => 1,
    scrAdv := fun s _ => s, osMax := fun _ _ => 0, base := 0, irqLine := 0 }

theorem Config.sample_wellFormed : Config.sample.WellFormed where
  product _ := by simp [Config.sample, Machine.clmul]
  fgDegree _ := by simp [Config.sample, Machine.degLe]
  fDegree _ := by simp [Config.sample, Machine.degLe]
  multOdd _ := by simp [Config.sample]
  decEnc v := by simp [Config.sample]
  baseAligned := by rfl

/-- A configuration together with its well-formedness: an ill-formed one is refused, since none can be built
(00_scope.md R10, 93 I1). -/
structure WellFormedConfig where
  cfg : Config := Config.sample
  wf : cfg.WellFormed := by exact Config.sample_wellFormed
deriving Inhabited

/-- DESIGN CHOICE (log entry 1), safe: the configuration the platform installed (70_reset_and_hazards.md R274). Opaque:
nothing is known of it but R10, so what is proved holds for every well-formed configuration. -/
opaque Config.installed : WellFormedConfig

/-- The installed configuration's record. -/
abbrev Config.chip : Config := Config.installed.cfg

/-- FREE VALUE (log entry 5), safe: what the n-th busy read of an unlisted location answers (70_reset_and_hazards.md R282, 93
I2). -/
opaque Config.busyRead : Nat → Word

/-- FREE VALUE (log entry 4), safe: how many host accesses are served between the n-th acceptance and CORE's step
(70_reset_and_hazards.md R281, R286; 93 I11): finite and unspecified. -/
opaque Config.acceptLatency : Nat → Nat

end Sys2Proof
end

