-- ==== Sys2Proof/Machine/State.lean ====
section
/-! DEFINITION. The state of the block (10_state.md R32-R64), as plain data, and its reset (70_reset_and_hazards.md R271).
ID is a constant, STATUS.ERR and IRQ are functions of other bits: they are computed where they are read. -/

namespace Sys2Proof.Machine

/-- The sequencer states (10_state.md R34). -/
inductive SeqState where
  | idle
  | detectFormat
  | slideWindow
  | checkSyndrome
  | substitute
  | validateControl
  | invert
  | descramble
  | finalize
  | done
  | failed
  | encStart
  | advanceSbEsb
  | prepare
  | assemble
  | alphabet
  | aperiodicity
  | offSynch
  | undersampling
  | emit
  | unit
  | control
  | decode
deriving DecidableEq, Repr, Inhabited

/-- The result codes (60_exceptions.md R241). -/
inductive ResultCode where
  | ok
  | fmtErr
  | synErr
  | subErr
  | ctrlErr
  | exhausted
  | reject
  | illegal
  | seqErr
  | divz
deriving DecidableEq, Repr, Inhabited

/-- The state of the block, then the model's own fields. -/
structure State where
  /-- CTRL.IE (R36). -/
  ie : Bool
  /-- STATUS.BUSY (R37). -/
  busy : Bool
  /-- STATUS.DONE (R37). -/
  done : Bool
  /-- STATUS.WERR (R37). -/
  werr : Bool
  /-- STATUS.INVUSED (R37). -/
  invused : Bool
  /-- CMD: the last accepted command word (R38). -/
  cmd : BitVec 32
  /-- RESULT.CODE (R39). -/
  resultCode : ResultCode
  /-- RESULT.STAGE (R39). -/
  resultStage : SeqState
  /-- SEQ (R33). -/
  seq : SeqState
  /-- FORMAT: none is NONE (R40). -/
  format : Option Fmt
  /-- IN_LEN (R41). -/
  inLen : BitVec 16
  /-- SB_START (R42). -/
  sbStart : BitVec 12
  /-- ESB_START (R42). -/
  esbStart : BitVec 10
  /-- ESB_STEP (R42). -/
  esbStep : BitVec 10
  /-- SB (R43). -/
  sb : BitVec 12
  /-- ESB (R43). -/
  esb : BitVec 10
  /-- ATTEMPTS (R44). -/
  attempts : BitVec 23
  /-- COND (R45). -/
  cond : BitVec 6
  /-- SYND (R46). -/
  synd : BitVec 16
  /-- SHIFT (R47). -/
  shift : BitVec 11
  /-- CTRLBITS (R48). -/
  ctrlbits : BitVec 3
  /-- DWCOUNT (R49). -/
  dwcount : BitVec 7
  /-- OUT_NIBS (R50). -/
  outNibs : BitVec 9
  /-- RES (R51). -/
  res : BitVec 32
  /-- SCR (R52). -/
  scr : BitVec 33
  /-- REM (R53). -/
  rem : BitVec 96
  /-- UBUF (R56). String index 0 of a buffer is its most significant bit (00_scope.md R12, R14). -/
  ubuf : BitVec 832
  /-- TBUF (R57). -/
  tbuf : BitVec 1024
  /-- TEL (R55). -/
  tel : BitVec 1023
  /-- IBUF (R58). -/
  ibuf : BitVec 1024
  /-- WBUF (R59). -/
  wbuf : BitVec 830
  /-- PBUF (R60). -/
  pbuf : BitVec 913
  /-- FIRST, hidden (R63). -/
  first : Bool
  /-- PEND, hidden: the accepted word while a command is in flight (R64). -/
  pend : Option Word
  /-- MODEL: the events of the outside still to come (log entry 3). -/
  host : List HostEvent
  /-- MODEL: what the port answered to the reads served so far, newest first (log entry 3). -/
  responses : List Word
  /-- MODEL: how many events are still served before CORE's step (log entry 4). -/
  latency : Nat
  /-- MODEL: how many commands were accepted; it indexes the free latency (log entry 4). -/
  accepted : Nat
  /-- MODEL: how many busy reads were answered with a free value; it indexes that value (log entry 5). -/
  busyReads : Nat
deriving DecidableEq, Repr

/-- The block has no fault: every failure ends its command with a result code, which is a next state (60_exceptions.md R240,
R248; 93: no item is 'stuck'). So no constructor stands here. -/
inductive Fault where
deriving DecidableEq, Repr

/-- Why the model defines no next state. -/
inductive Refusal where
  /-- Raised by exec's arm of an instruction that has no meaning yet; safe. No arm does. -/
  | notModelled (mnemonic : String)
  /-- Raised when the next host access names an offset that is not a multiple of 4 (20_memory.md R73, 93 I12: refuse); safe. -/
  | misalignedOffset (off : Nat)
  /-- Raised when the next host access names an offset of 0x1000 or more (93 I12: refuse); safe. -/
  | offsetOutOfRange (off : Nat)
deriving DecidableEq, Repr

/-- Reset() (70_reset_and_hazards.md R271), and nothing still to come from outside. -/
def State.reset : State where
  ie := false
  busy := false
  done := false
  werr := false
  invused := false
  cmd := 0
  resultCode := .ok
  resultStage := .idle
  seq := .idle
  format := none
  inLen := 0
  sbStart := 0
  esbStart := 0
  esbStep := 1
  sb := 0
  esb := 0
  attempts := 0
  cond := 0
  synd := 0
  shift := 0
  ctrlbits := 0
  dwcount := 0
  outNibs := 0
  res := 0
  scr := 0
  rem := 0
  ubuf := 0
  tbuf := 0
  tel := 0
  ibuf := 0
  wbuf := 0
  pbuf := 0
  first := false
  pend := none
  host := []
  responses := []
  latency := 0
  accepted := 0
  busyReads := 0

end Sys2Proof.Machine
end

