-- ==== Sys2Proof/Machine/Ops.lean ====
section
/-! DEFINITION. The named operations every command is built from: how a command is accepted (20_memory.md R80), how it ends
(60_exceptions.md R244, R245: this block's whole "taking an exception"; there is no return from one, R249), how bodies
follow one another (R247), and the reset (70_reset_and_hazards.md R271). -/

namespace Sys2Proof.Machine

/-- What a body does: it reaches its end, or it raises. A raise keeps every write made before it (60_exceptions.md R247), so
both carry the state. -/
inductive BodyResult where
  | ok (s : State)
  | raised (code : ResultCode) (stage : SeqState) (s : State)
deriving DecidableEq, Repr

/-- The state a body leaves, ended or raised. -/
def BodyResult.state : BodyResult → State
  | .ok s => s
  | .raised _ _ s => s

/-- The next body runs only if this one did not raise (60_exceptions.md R244). -/
def BodyResult.andThen (r : BodyResult) (next : State → BodyResult) : BodyResult :=
  match r with
  | .ok s => next s
  | .raised code stage s => .raised code stage s

/-- A raise with this code is caught: none of the writes of R244 happens and the handler goes on (60_exceptions.md R244). -/
def BodyResult.catching (r : BodyResult) (code : ResultCode) (handler : State → BodyResult) : BodyResult :=
  match r with
  | .ok s => .ok s
  | .raised code' stage s => if code' = code then handler s else .raised code' stage s

/-- complete (60_exceptions.md R245). -/
def complete (s : State) : State :=
  { s with resultCode := .ok, resultStage := .done, seq := .done, pend := none, busy := false, done := true }

/-- raise Code(stage) (60_exceptions.md R244). -/
def raise (code : ResultCode) (stage : SeqState) (s : State) : State :=
  { s with resultCode := code, resultStage := stage, seq := .failed, pend := none, busy := false, done := true }

/-- The end of a command (60_exceptions.md R240): exactly one of R244 and R245. -/
def BodyResult.finish : BodyResult → State
  | .ok s => complete s
  | .raised code stage s => raise code stage s

/-- The FORMAT check of a step command (30_encoding.md R106): with FORMAT = NONE it raises SEQ_ERR at its own state and
changes nothing else. -/
def withFormat (own : SeqState) (body : Fmt → State → BodyResult) (s : State) : BodyResult :=
  match s.format with
  | none => .raised .seqErr own s
  | some fmt => body fmt s

/-- SEQ <- state (10_state.md R33, 00_scope.md R16). -/
def enter (state : SeqState) (s : State) : State := { s with seq := state }

/-- A word is accepted (20_memory.md R80): CMD ← w, PEND ← w, BUSY ← 1, DONE ← 0. The model draws the command's latency
(log entry 4). -/
def accept (w : Word) (s : State) : State :=
  { s with cmd := w, pend := some w, busy := true, done := false,
           latency := Config.acceptLatency s.accepted, accepted := s.accepted + 1 }

/-- Reset() (70_reset_and_hazards.md R271): every piece of the block's state. The model's own fields are not the block's and
stay (log entry 10). -/
def resetBlock (s : State) : State :=
  { State.reset with
    host := s.host, responses := s.responses, latency := s.latency, accepted := s.accepted, busyReads := s.busyReads }

/-- SRESET's effect (43_control.md R231), whether CORE runs it or the host's write of it aborts a running command
(20_memory.md R80). -/
def softReset (s : State) : State :=
  { resetBlock s with
    ie := s.ie, cmd := 0x01000000, seq := .done, resultCode := .ok, resultStage := .done, done := true }

/-- A command word the decoder rejects (30_encoding.md R104): ILLEGAL at the state Decode, nothing else. -/
def illegalCommand (s : State) : State := raise .illegal .decode s

end Sys2Proof.Machine
end

