-- ==== Sys2Proof/Machine/Control.lean ====
section
/-! DEFINITION. The control commands (43_control.md R230-R233). -/

namespace Sys2Proof.Machine

/-- NOP (R230). -/
def nopBody (s : State) : BodyResult := .ok (enter .control s)

/-- CLRIN (R232). -/
def clrinBody (s : State) : BodyResult := .ok { enter .control s with ibuf := 0, inLen := 0 }

/-- NOP (R230). -/
def execNop (s : State) : Host.Outcome State Fault Refusal := .next (nopBody s).finish

/-- SRESET (R231): its pseudocode writes its own completion. -/
def execSreset (s : State) : Host.Outcome State Fault Refusal := .next (softReset s)

/-- CLRIN (R232). -/
def execClrin (s : State) : Host.Outcome State Fault Refusal := .next (clrinBody s).finish

end Sys2Proof.Machine
end

