-- ==== Sys2Proof/Machine/Flags.lean ====
section
/-! DEFINITION. The flags and codes of the control and status registers (10_state.md R34-R39, R45; 60_exceptions.md R241,
R250) and their port images. -/

namespace Sys2Proof.Machine

/-- The codes of SEQ and RESULT.STAGE (10_state.md R34). -/
def SeqState.code : SeqState → BitVec 8
  | .idle => 0x00
  | .detectFormat => 0x01
  | .slideWindow => 0x02
  | .checkSyndrome => 0x03
  | .substitute => 0x04
  | .validateControl => 0x05
  | .invert => 0x06
  | .descramble => 0x07
  | .finalize => 0x08
  | .done => 0x09
  | .failed => 0x0A
  | .encStart => 0x11
  | .advanceSbEsb => 0x12
  | .prepare => 0x13
  | .assemble => 0x14
  | .alphabet => 0x15
  | .aperiodicity => 0x16
  | .offSynch => 0x17
  | .undersampling => 0x18
  | .emit => 0x19
  | .unit => 0x20
  | .control => 0x21
  | .decode => 0x30

/-- The codes of RESULT.CODE (60_exceptions.md R241). -/
def ResultCode.code : ResultCode → BitVec 4
  | .ok => 0
  | .fmtErr => 1
  | .synErr => 2
  | .subErr => 3
  | .ctrlErr => 4
  | .exhausted => 5
  | .reject => 6
  | .illegal => 7
  | .seqErr => 8
  | .divz => 9

/-- FORMAT's code (10_state.md R40). -/
def formatCode : Option Fmt → BitVec 2
  | none => 0
  | some .short => 1
  | some .long => 2

/-- What a write of two bits to FORMAT stores: 3 stores NONE (10_state.md R40). -/
def formatOfCode (v : BitVec 2) : Option Fmt :=
  match v.toNat with
  | 1 => some .short
  | 2 => some .long
  | _ => none

/-- STATUS.ERR: RESULT.CODE ≠ 0, at all times (10_state.md R37). -/
def statusErr (s : State) : Bool := s.resultCode != .ok

/-- IRQ = CTRL.IE ∧ STATUS.DONE (60_exceptions.md R250). -/
def irq (s : State) : Bool := s.ie && s.done

/-- STATUS as the port reads it (10_state.md R37). -/
def statusWord (s : State) : Word :=
  (0 : BitVec 27) ++ BitVec.ofBool s.invused ++ BitVec.ofBool s.werr ++ BitVec.ofBool (statusErr s)
    ++ BitVec.ofBool s.done ++ BitVec.ofBool s.busy

/-- RESULT as the port reads it (10_state.md R39). -/
def resultWord (s : State) : Word :=
  (0 : BitVec 16) ++ s.resultStage.code ++ (0 : BitVec 4) ++ s.resultCode.code

/-- A write to STATUS: writing 1 clears DONE (bit 1) and WERR (bit 3); nothing else changes (10_state.md R37). -/
def clearStatus (v : Word) (s : State) : State :=
  { s with done := s.done && !v.getLsbD 1, werr := s.werr && !v.getLsbD 3 }

/-- The COND flags, by the check they record (10_state.md R45). -/
def condHeader : Nat := 0
/-- COND bit 1: check-bit self-consistency (R45). -/
def condSelfCheck : Nat := 1
/-- COND bit 2: alphabet (R45). -/
def condAlphabet : Nat := 2
/-- COND bit 3: aperiodicity (R45). -/
def condAperiodicity : Nat := 3
/-- COND bit 4: off-synch parsing (R45). -/
def condOffSynch : Nat := 4
/-- COND bit 5: undersampling (R45). -/
def condUndersampling : Nat := 5

/-- COND[k] <- b; the other bits stay (10_state.md R45). -/
def setCond (k : Nat) (b : Bool) (s : State) : State :=
  { s with cond := if b then s.cond ||| BitVec.twoPow 6 k else s.cond &&& ~~~(BitVec.twoPow 6 k) }

/-- COND[5:1] <- 0 (42_encode.md R193). -/
def clearCheckConds (s : State) : State := { s with cond := s.cond &&& 1 }

end Sys2Proof.Machine
end

