-- ==== Sys2Proof/Machine/Bits.lean ====
section
/-! DEFINITION. Bit strings (00_scope.md R12-R14, R16). A string of length L is a BitVec L whose string index i is bit
L − 1 − i: then num (R14) is toNat, str_W is BitVec.ofNat W, concatenation is ++ and complement is ~~~. -/

namespace Sys2Proof.Machine

/-- s[i] (R12). -/
def bitAt {n : Nat} (s : BitVec n) (i : Nat) : Bool := s.getMsbD i

/-- The len bits of s from index a: s[a .. a+len−1] (R12). -/
def slice {n : Nat} (s : BitVec n) (a len : Nat) : BitVec len := s.extractLsb' (n - (a + len)) len

/-- BUF[a .. a+m−1] <- x (R16): the buffer with m bits from index a replaced. -/
def place {n m : Nat} (buf : BitVec n) (a : Nat) (x : BitVec m) : BitVec n :=
  (buf &&& ~~~((BitVec.allOnes m).setWidth n <<< (n - (a + m)))) ||| (x.setWidth n <<< (n - (a + m)))

/-- x ‖ 0^(w − n): the string x in the first n places of a string of length w. -/
def padTo {n : Nat} (w : Nat) (x : BitVec n) : BitVec w := x.setWidth w <<< (w - n)

/-- The string of length n whose bit at index i is g i. -/
def packBits (n : Nat) (g : Nat → Bool) : BitVec n :=
  BitVec.ofNat n ((List.range n).foldl (fun acc i => 2 * acc + (g i).toNat) 0)

/-- popcount(v) (R16). -/
def popcount {n : Nat} (v : BitVec n) : Nat := (List.range n).countP fun i => v.getLsbD i

end Sys2Proof.Machine
end

