-- ==== Sys2Proof/Machine/Operands.lean ====
section
/-! DEFINITION. What the operands of a command select: the format constants (00_scope.md R6, R7), the divisor SEL names
(30_encoding.md R102) and the fields of a telegram (40_units.md R120, R121, R123). -/

namespace Sys2Proof

/-- N: telegram bits (R6). -/
def Fmt.N : Fmt → Nat
  | .short => 341
  | .long => 1023

/-- M: scrambled payload bits (R6). -/
def Fmt.M : Fmt → Nat
  | .short => 210
  | .long => 830

/-- TW: transmission width (R6). -/
def Fmt.TW : Fmt → Nat
  | .short => 344
  | .long => 1024

/-- K = M / 10: payload words (R6). -/
def Fmt.K (f : Fmt) : Nat := f.M / 10

/-- P = 11·K: shaped payload bits (R6). -/
def Fmt.P (f : Fmt) : Nat := 11 * f.K

/-- NB = N / 11: blocks of a telegram (R6). -/
def Fmt.NB (f : Fmt) : Nat := f.N / 11

/-- TN = TW / 4: hex digits of an encoded telegram (R6). -/
def Fmt.TN (f : Fmt) : Nat := f.TW / 4

/-- UN = (M + 2) / 4: hex digits of a decoded payload (R6). -/
def Fmt.UN (f : Fmt) : Nat := (f.M + 2) / 4

end Sys2Proof

namespace Sys2Proof.Machine

/-- ATT_MAX = 2^22 (R7). -/
def attMax : BitVec 23 := 4194304

/-- The divisor SEL selects (30_encoding.md R102): none for the reserved SEL = 3. -/
def selectedPoly (c : Config) (fmt : Fmt) (sel : BitVec 2) : Option Nat :=
  match sel.toNat with
  | 0 => some (c.fPoly fmt)
  | 1 => some (c.gPoly fmt)
  | 2 => some (c.fgPoly fmt)
  | _ => none

/-- The candidate TEL[0 .. N−1] (10_state.md R55). -/
def candidate (fmt : Fmt) (tel : BitVec 1023) : BitVec fmt.N := slice tel 0 fmt.N

/-- The dividend poly(TEL[0 .. N−1]) (00_scope.md R15, 40_units.md R123). -/
def telPoly (fmt : Fmt) (tel : BitVec 1023) : Nat := (candidate fmt tel).toNat

/-- HDR(sb, esb) (40_units.md R121): the prefix 001, SB, ESB. -/
def hdr (sb : BitVec 12) (esb : BitVec 10) : BitVec 25 := (1 : BitVec 3) ++ sb ++ esb

end Sys2Proof.Machine
end

