-- ==== Sys2Proof/Machine/Scrambler.lean ====
section
/-! DEFINITION. The scrambler (40_units.md R129-R132). -/

namespace Sys2Proof.Machine

/-- The two directions of Scramble (R132). -/
inductive ScrambleDir where
  | enc
  | dec
deriving DecidableEq, Repr

/-- Out(SCR) = SCR[0] (R129). -/
def scramblerOut (scr : BitVec 33) : Bool := scr.getLsbD 0

/-- S = (SCR_MULT[fmt] × sb) mod 2^32 (R131). -/
def seedValue (c : Config) (fmt : Fmt) (sb : BitVec 12) : BitVec 32 := c.scrMult fmt * sb.setWidth 32

/-- Seed(fmt, sb) (R131). -/
def seedState (c : Config) (fmt : Fmt) (sb : BitVec 12) : BitVec 33 := c.scrInit (seedValue c fmt sb)

/-- The bit the scrambler feeds back when x is read and y is written (R132). -/
def feedbackBit (fb : Feedback) (dir : ScrambleDir) (x y : Bool) : Bool :=
  match fb, dir with
  | .cipher, .enc => y
  | .cipher, .dec => x
  | .plain, .enc => x
  | .plain, .dec => y

/-- One turn of Scramble's loop (R132), on the pair (SCR, WBUF). -/
def scrambleBit (c : Config) (dir : ScrambleDir) (acc : BitVec 33 × BitVec 830) (i : Nat) : BitVec 33 × BitVec 830 :=
  let x := bitAt acc.2 i
  let y := x ^^ scramblerOut acc.1
  (c.scrAdv acc.1 (feedbackBit c.scrFb dir x y), place acc.2 i (BitVec.ofBool y))

/-- Scramble(fmt, sb, dir) (R132): the final SCR and the new WBUF. As every CORE write of WBUF does, it leaves
WBUF[10K .. 829] zero (10_state.md R59, R61). -/
def scramble (c : Config) (fmt : Fmt) (sb : BitVec 12) (dir : ScrambleDir) (wbuf : BitVec 830) : BitVec 33 × BitVec 830 :=
  (List.range fmt.M).foldl (scrambleBit c dir) (seedState c fmt sb, padTo 830 (slice wbuf 0 fmt.M))

end Sys2Proof.Machine
end

