-- ==== Sys2Proof/Machine/Substitution.lean ====
section
/-! DEFINITION. The substitution code (40_units.md R125, R126). -/

namespace Sys2Proof.Machine

/-- Valid(w) (R125): SubDec(w) is not INVALID. -/
def validWord (c : Config) (w : BitVec 11) : Bool := (c.subDec w).isSome

/-- Expand (R126): the K codewords of WBUF's words; PBUF[P .. 912] is 0. -/
def expand (c : Config) (fmt : Fmt) (wbuf : BitVec 830) : BitVec 913 :=
  (List.range fmt.K).foldl (fun pbuf j => place pbuf (11 * j) (c.subEnc (slice wbuf (10 * j) 10))) 0

/-- What Contract writes for block j of the candidate: 0 for an INVALID codeword (R126). -/
def contractLane (c : Config) (tel : BitVec 1023) (j : Nat) : BitVec 10 :=
  (c.subDec (slice tel (11 * j) 11)).getD 0

/-- Contract (R126), the words: WBUF[10K .. 829] is 0. -/
def contract (c : Config) (fmt : Fmt) (tel : BitVec 1023) : BitVec 830 :=
  (List.range fmt.K).foldl (fun wbuf j => place wbuf (10 * j) (contractLane c tel j)) 0

/-- Contract (R126), the count of valid lanes. -/
def contractCount (c : Config) (fmt : Fmt) (tel : BitVec 1023) : Nat :=
  (List.range fmt.K).countP fun j => validWord c (slice tel (11 * j) 11)

end Sys2Proof.Machine
end

