-- ==== Sys2Proof/Machine/Decoder.lean ====
section
/-! DEFINITION. The decoder commands (41_decode.md R160-R176). Each step has a body; alone, a step other than DETECT checks
FORMAT first (30_encoding.md R106); inside DECODE the bodies follow one another. -/

namespace Sys2Proof.Machine

/-- The format an input length selects (R161): none below 86 digits. -/
def detectedFormat (len : BitVec 16) : Option Fmt :=
  if len < 86 then none else if len ≤ 255 then some .short else some .long

/-- DETECT (R161). -/
def detectBody (s : State) : BodyResult :=
  let s1 := { enter .detectFormat s with format := detectedFormat s.inLen }
  if s.inLen < 86 then .raised .fmtErr .detectFormat s1 else .ok s1

/-- WINDOW (R162): the last N input bits. -/
def windowBody (fmt : Fmt) (s : State) : BodyResult :=
  .ok { enter .slideWindow s with tel := padTo 1023 (slice s.ibuf (1024 - fmt.N) fmt.N) }

/-- GCHECK (R164). REM takes the bits of the remainder it has (10_state.md R53, log entry 2). -/
def gcheckBody (c : Config) (fmt : Fmt) (s : State) : BodyResult :=
  let r := polyMod (telPoly fmt s.tel) (c.gPoly fmt)
  let s1 := { enter .checkSyndrome s with rem := BitVec.ofNat 96 r.1 }
  if r.2 then .raised .divz .checkSyndrome s1
  else if r.1 ≠ 0 then .raised .synErr .checkSyndrome s1
  else .ok s1

/-- FSYND (R165). REM is not written, on DIVZ neither: R165 and 10_state.md R53 say so, and 60_exceptions.md R244 and R247 let
a raise add no write. R242's DIVZ row (REM = 0) is read, by R247, as the write that GCHECK and POLYREM make before they raise (DEDUCED,
log entry 18). -/
def fsyndBody (c : Config) (fmt : Fmt) (s : State) : BodyResult :=
  let r := polyMod (telPoly fmt s.tel) (c.fPoly fmt)
  let s1 := enter .checkSyndrome s
  if r.2 then .raised .divz .checkSyndrome s1
  else .ok { s1 with synd := BitVec.ofNat 16 r.1 }

/-- Realign(e) (R166): the candidate rotated left by e. -/
def realign (fmt : Fmt) (tel : BitVec 1023) (e : Nat) : BitVec 1023 :=
  padTo 1023 ((candidate fmt tel).rotateLeft e)

/-- SUBST (R167). -/
def substBody (c : Config) (fmt : Fmt) (s : State) : BodyResult :=
  let s1 := enter .substitute s
  if fmt = .long ∧ s.synd = 0 then .raised .subErr .substitute s1
  else
    match c.synIdx fmt s.synd with
    | none => .raised .subErr .substitute s1
    | some e =>
      if fmt.N ≤ e then .raised .subErr .substitute s1
      else .ok { s1 with shift := BitVec.ofNat 11 e, tel := realign fmt s.tel e }

/-- The inversion bit of the candidate, TEL[N−110] (R168). -/
def inversionBit (fmt : Fmt) (tel : BitVec 1023) : Bool := bitAt tel (fmt.N - 110)

/-- The control bits of the candidate, num(TEL[N−109 .. N−108]) (R168). -/
def controlBits (fmt : Fmt) (tel : BitVec 1023) : BitVec 2 := slice tel (fmt.N - 109) 2

/-- VALID (R168). -/
def validBody (c : Config) (fmt : Fmt) (s : State) : BodyResult :=
  let inv := inversionBit fmt s.tel
  let cb := controlBits fmt s.tel
  let cnt := contractCount c fmt s.tel
  let s1 :=
    { enter .validateControl s with
      ctrlbits := cb ++ BitVec.ofBool inv, sb := slice s.tel (fmt.N - 107) 12,
      wbuf := contract c fmt s.tel, dwcount := BitVec.ofNat 7 cnt }
  if cnt ≠ fmt.K ∨ inv = true ∨ cb ≠ 1 then .raised .ctrlErr .validateControl s1 else .ok s1

/-- INVERT (R170). -/
def invertBody (fmt : Fmt) (s : State) : BodyResult :=
  .ok { enter .invert s with tel := padTo 1023 (~~~(candidate fmt s.tel)), invused := true }

/-- DESCR (R172). -/
def descrBody (c : Config) (fmt : Fmt) (s : State) : BodyResult :=
  let r := scramble c fmt s.sb .dec s.wbuf
  .ok { enter .descramble s with scr := r.1, wbuf := r.2 }

/-- Word j of WBUF as a number (R174, R194). -/
def wordAt (wbuf : BitVec 830) (j : Nat) : Nat := (slice wbuf (10 * j) 10).toNat

/-- The first payload word with the checksum undone (R174). -/
def uncheckedFirst (fmt : Fmt) (wbuf : BitVec 830) : Nat :=
  let sum := ((List.range (fmt.K - 1)).map fun j => wordAt wbuf (j + 1)).sum % 1024
  if wordAt wbuf 0 < sum then wordAt wbuf 0 + 1024 - sum else wordAt wbuf 0 - sum

/-- FINAL (R174): the trailer bits and everything after them are 0. -/
def finalBody (fmt : Fmt) (s : State) : BodyResult :=
  .ok { enter .finalize s with
        ubuf := place (padTo 832 (slice s.wbuf 0 fmt.M)) 0 (BitVec.ofNat 10 (uncheckedFirst fmt s.wbuf)),
        outNibs := BitVec.ofNat 9 fmt.UN }

/-- VALID with its one inversion retry (R160, R169, R171): the first CTRL_ERR is caught, a second is not. -/
def validWithRetry (c : Config) (fmt : Fmt) (s : State) : BodyResult :=
  (validBody c fmt s).catching .ctrlErr fun s1 => (invertBody fmt s1).andThen (validBody c fmt)

/-- DECODE after DETECT (R160), in the format DETECT chose. -/
def decodeRest (c : Config) (fmt : Fmt) (s : State) : BodyResult :=
  (windowBody fmt s).andThen fun s =>
  (gcheckBody c fmt s).andThen fun s =>
  (fsyndBody c fmt s).andThen fun s =>
  (substBody c fmt s).andThen fun s =>
  (validWithRetry c fmt s).andThen fun s =>
  (descrBody c fmt s).andThen (finalBody fmt)

/-- DECODE (R160). -/
def decodeBody (c : Config) (s : State) : BodyResult :=
  (detectBody { s with outNibs := 0, invused := false }).andThen (withFormat .slideWindow (decodeRest c))

/-- DECODE (R160). -/
def execDecode (s : State) : Host.Outcome State Fault Refusal := .next (decodeBody Config.chip s).finish

/-- DETECT (R161). -/
def execDetect (s : State) : Host.Outcome State Fault Refusal := .next (detectBody s).finish

/-- WINDOW (R162). -/
def execWindow (s : State) : Host.Outcome State Fault Refusal := .next (withFormat .slideWindow windowBody s).finish

/-- GCHECK (R164). -/
def execGcheck (s : State) : Host.Outcome State Fault Refusal :=
  .next (withFormat .checkSyndrome (gcheckBody Config.chip) s).finish

/-- FSYND (R165). -/
def execFsynd (s : State) : Host.Outcome State Fault Refusal :=
  .next (withFormat .checkSyndrome (fsyndBody Config.chip) s).finish

/-- SUBST (R167). -/
def execSubst (s : State) : Host.Outcome State Fault Refusal :=
  .next (withFormat .substitute (substBody Config.chip) s).finish

/-- VALID (R168, R169). -/
def execValid (s : State) : Host.Outcome State Fault Refusal :=
  .next (withFormat .validateControl (validBody Config.chip) s).finish

/-- INVERT (R170). -/
def execInvert (s : State) : Host.Outcome State Fault Refusal := .next (withFormat .invert invertBody s).finish

/-- DESCR (R172). -/
def execDescr (s : State) : Host.Outcome State Fault Refusal :=
  .next (withFormat .descramble (descrBody Config.chip) s).finish

/-- FINAL (R174). -/
def execFinal (s : State) : Host.Outcome State Fault Refusal := .next (withFormat .finalize finalBody s).finish

end Sys2Proof.Machine
end

