-- ==== Sys2Proof/Machine/Comparator.lean ====
section
/-! DEFINITION. The acceptance conditions of the encoder (42_encode.md R198-R207), as Booleans of the candidate. -/

namespace Sys2Proof.Machine

/-- The header windows of a pair (42_encode.md R193): h[24:14] and h[13:3] are both codewords. -/
def headerValid (c : Config) (sb : BitVec 12) (esb : BitVec 10) : Bool :=
  validWord c ((hdr sb esb).extractLsb' 14 11) && validWord c ((hdr sb esb).extractLsb' 3 11)

/-- LongestRun's loop: the run that ends here and the longest so far. -/
def runStep (acc : Nat × Nat) (b : Bool) : Nat × Nat :=
  if b then (acc.1 + 1, max acc.2 (acc.1 + 1)) else (0, acc.2)

/-- LongestRun(v) (R205). -/
def longestRun (v : List Bool) : Nat := (v.foldl runStep (0, 0)).2

/-- CALPHA's condition (R200): every block is a codeword. -/
def alphabetOk (c : Config) (fmt : Fmt) (tel : BitVec 1023) : Bool :=
  (List.range fmt.NB).all fun j => validWord c (slice tel (11 * j) 11)

/-- cyc(q, len) (R199): len bits from T⟨q⟩ on, indices taken mod N. -/
def cyc (fmt : Fmt) (tel : BitVec 1023) (q : Int) (len : Nat) : BitVec len :=
  slice ((candidate fmt tel).rotateLeft (q % (fmt.N : Int)).toNat) 0 len

/-- d = ⌊N/3⌋ + 5 (R201). -/
def aperiodDistance (fmt : Fmt) : Nat := fmt.N / 3 + 5

/-- The shifts k in [−3, 3] (R201). -/
def aperiodShifts : List Int := [-3, -2, -1, 0, 1, 2, 3]

/-- The least Hamming distance R201 requires at shift k. -/
def aperiodNeed (k : Int) : Nat := if k = 0 then 3 else 2

/-- One comparison of R201: the windows at block j and shift k are far enough apart. -/
def aperiodPairOk (fmt : Fmt) (tel : BitVec 1023) (j : Nat) (k : Int) : Bool :=
  decide (aperiodNeed k ≤
    popcount (cyc fmt tel (11 * j : Int) 22 ^^^ cyc fmt tel ((11 * j : Int) - (aperiodDistance fmt : Int) + k) 22))

/-- CAPER's condition (R202): SHORT always passes. -/
def aperiodicityOk (fmt : Fmt) (tel : BitVec 1023) : Bool :=
  match fmt with
  | .short => true
  | .long => (List.range fmt.NB).all fun j => aperiodShifts.all fun k => aperiodPairOk fmt tel j k

/-- The doubled telegram D (R203). -/
def doubled (fmt : Fmt) (tel : BitVec 1023) : BitVec (fmt.N + fmt.N) := candidate fmt tel ++ candidate fmt tel

/-- Which blocks of D at offset o are codewords (R203, R204). -/
def offSynchBlocks (c : Config) (fmt : Fmt) (tel : BitVec 1023) (o : Nat) : List Bool :=
  (List.range ((2 * fmt.N - o) / 11)).map fun j => validWord c (slice (doubled fmt tel) (o + 11 * j) 11)

/-- COFFS's condition (R204). -/
def offSynchOk (c : Config) (fmt : Fmt) (tel : BitVec 1023) : Bool :=
  (List.range 11).all fun o => decide (longestRun (offSynchBlocks c fmt tel o) ≤ (c.osMax fmt o).toNat)

/-- The length of Q(k, o): ⌈(N − o)/k⌉ (R206). -/
def sampleLength (fmt : Fmt) (k o : Nat) : Nat := (fmt.N - o + (k - 1)) / k

/-- Block j of Q(k, o) (R206): the bits TEL[o + k·i] for i in [11j, 11j + 10]. -/
def sampleBlock (tel : BitVec 1023) (k o j : Nat) : BitVec 11 := packBits 11 fun i => bitAt tel (o + k * (11 * j + i))

/-- Which blocks of Q(k, o) are codewords (R206, R207). -/
def sampleBlocks (c : Config) (fmt : Fmt) (tel : BitVec 1023) (k o : Nat) : List Bool :=
  (List.range (sampleLength fmt k o / 11)).map fun j => validWord c (sampleBlock tel k o j)

/-- CUNDER's condition (R207). -/
def undersamplingOk (c : Config) (fmt : Fmt) (tel : BitVec 1023) : Bool :=
  [2, 4, 8, 16].all fun k =>
    (List.range (11 * k)).all fun o => decide (longestRun (sampleBlocks c fmt tel k o) ≤ 30)

end Sys2Proof.Machine
end

