-- ==== Sys2Proof/Machine/Encoder.lean ====
section
/-! DEFINITION. The encoder commands (42_encode.md R190-R210). Each step has a body; alone, a step other than ESTART checks
FORMAT first (30_encoding.md R106); ENCODE runs the bodies as its search. -/

namespace Sys2Proof.Machine

/-- ESTART (R191). -/
def estartBody (fmt : Fmt) (s : State) : BodyResult :=
  .ok { enter .encStart s with
        format := some fmt, sb := s.sbStart, esb := s.esbStart, attempts := 0, first := true, cond := 0, outNibs := 0 }

/-- The ESB increment (R192): a step of 0 acts as 1. -/
def searchStep (esbStep : BitVec 10) : Nat := if esbStep = 0 then 1 else esbStep.toNat

/-- Inc() (R192) on the pair (SB, ESB): ESB wraps into SB at 1024, SB wraps from 4095 to 0. -/
def incPair (step : Nat) (pair : BitVec 12 × BitVec 10) : BitVec 12 × BitVec 10 :=
  if 1024 ≤ pair.2.toNat + step then (pair.1 + 1, BitVec.ofNat 10 (pair.2.toNat + step - 1024))
  else (pair.1, BitVec.ofNat 10 (pair.2.toNat + step))

/-- The pair ADVANCE looks at next (R193): the start pair right after ESTART, else the incremented pair. -/
def nextPair (s : State) : BitVec 12 × BitVec 10 :=
  if s.first then (s.sb, s.esb) else incPair (searchStep s.esbStep) (s.sb, s.esb)

/-- ADVANCE moves to the next pair; FIRST is then 0 (R193). -/
def moveToNext (s : State) : State := { s with sb := (nextPair s).1, esb := (nextPair s).2, first := false }

/-- One attempt is counted (R193). -/
def countAttempt (s : State) : State := { s with attempts := s.attempts + 1 }

/-- ADVANCE's loop (R193). Every turn that goes on counts one attempt, so the turns from ATTEMPTS to ATT_MAX, and one more,
always suffice: the first equation is never reached from advanceBody (log entry 13). -/
def advanceLoop (c : Config) : Nat → State → BodyResult
  | 0, s => .raised .exhausted .advanceSbEsb s
  | fuel + 1, s =>
    let s1 := moveToNext s
    if s1.attempts = attMax then .raised .exhausted .advanceSbEsb (setCond condHeader false s1)
    else if headerValid c s1.sb s1.esb then .ok (setCond condHeader true (countAttempt s1))
    else advanceLoop c fuel (countAttempt s1)

/-- ADVANCE (R193). -/
def advanceBody (c : Config) (s : State) : BodyResult :=
  advanceLoop c ((attMax - s.attempts).toNat + 1) (clearCheckConds (enter .advanceSbEsb s))

/-- The payload words with the checksum in the first (R194, R195): the sum of all K words mod 1024. -/
def checksummed (fmt : Fmt) (ubuf : BitVec 832) : BitVec 830 :=
  let wbuf : BitVec 830 := padTo 830 (slice ubuf 0 fmt.M)
  place wbuf 0 (BitVec.ofNat 10 (((List.range fmt.K).map (wordAt wbuf)).sum % 1024))

/-- PREP (R194): checksum, scramble, expand. -/
def prepBody (c : Config) (fmt : Fmt) (s : State) : BodyResult :=
  let r := scramble c fmt s.sb .enc (checksummed fmt s.ubuf)
  .ok { enter .prepare s with scr := r.1, wbuf := r.2, pbuf := expand c fmt r.2 }

/-- The candidate before its check bits (R197): the shaped payload, the header, a zero check region. -/
def assembled (fmt : Fmt) (pbuf : BitVec 913) (sb : BitVec 12) (esb : BitVec 10) : BitVec 1023 :=
  place (padTo 1023 (slice pbuf 0 fmt.P)) fmt.P (hdr sb esb)

/-- ASSEMBLE (R197). -/
def assembleBody (c : Config) (fmt : Fmt) (s : State) : BodyResult :=
  let tel := assembled fmt s.pbuf s.sb s.esb
  let r := polyMod (telPoly fmt tel) (c.fgPoly fmt)
  let s1 := { enter .assemble s with tel := tel, rem := BitVec.ofNat 96 r.1 }
  let cb85 := (c.gPoly fmt ^^^ r.1) % 2 ^ 85
  if r.2 then .raised .reject .assemble (setCond condSelfCheck false s1)
  else if cb85 ^^^ c.gPoly fmt ≠ r.1 then .raised .reject .assemble (setCond condSelfCheck false s1)
  else .ok (setCond condSelfCheck true { s1 with tel := place tel (fmt.N - 85) (BitVec.ofNat 85 cb85) })

/-- An acceptance condition (R198): it enters its state, writes its COND bit, and raises REJECT when it fails. -/
def conditionBody (own : SeqState) (k : Nat) (ok : Bool) (s : State) : BodyResult :=
  let s1 := setCond k ok (enter own s)
  if ok then .ok s1 else .raised .reject own s1

/-- CALPHA (R200). -/
def calphaBody (c : Config) (fmt : Fmt) (s : State) : BodyResult :=
  conditionBody .alphabet condAlphabet (alphabetOk c fmt s.tel) s

/-- CAPER (R202). -/
def caperBody (fmt : Fmt) (s : State) : BodyResult :=
  conditionBody .aperiodicity condAperiodicity (aperiodicityOk fmt s.tel) s

/-- COFFS (R204). -/
def coffsBody (c : Config) (fmt : Fmt) (s : State) : BodyResult :=
  conditionBody .offSynch condOffSynch (offSynchOk c fmt s.tel) s

/-- CUNDER (R207). -/
def cunderBody (c : Config) (fmt : Fmt) (s : State) : BodyResult :=
  conditionBody .undersampling condUndersampling (undersamplingOk c fmt s.tel) s

/-- EMIT (R208). -/
def emitBody (fmt : Fmt) (s : State) : BodyResult :=
  .ok { enter .emit s with tbuf := padTo 1024 (candidate fmt s.tel), outNibs := BitVec.ofNat 9 fmt.TN }

/-- One candidate of ENCODE, after ADVANCE (R190): built, then tested in order, stopping at the first REJECT. -/
def candidateBody (c : Config) (fmt : Fmt) (s : State) : BodyResult :=
  (prepBody c fmt s).andThen fun s =>
  (assembleBody c fmt s).andThen fun s =>
  (calphaBody c fmt s).andThen fun s =>
  (caperBody fmt s).andThen fun s =>
  (coffsBody c fmt s).andThen (cunderBody c fmt)

/-- ENCODE's loop (R190): a REJECT is caught and the search goes on; EXHAUSTED is not. Every turn counts an attempt, so
ATT_MAX + 1 turns always suffice: the first equation is never reached from encodeBody (log entry 13). -/
def encodeLoop (c : Config) (fmt : Fmt) : Nat → State → BodyResult
  | 0, s => .raised .exhausted .advanceSbEsb s
  | fuel + 1, s =>
    (advanceBody c s).andThen fun s =>
      ((candidateBody c fmt s).andThen (emitBody fmt)).catching .reject (encodeLoop c fmt fuel)

/-- ENCODE (R190). -/
def encodeBody (c : Config) (fmt : Fmt) (s : State) : BodyResult :=
  (estartBody fmt s).andThen (encodeLoop c fmt (attMax.toNat + 1))

/-- ENCODE (R190). -/
def execEncode (fmt : Fmt) (s : State) : Host.Outcome State Fault Refusal := .next (encodeBody Config.chip fmt s).finish

/-- ESTART (R191). -/
def execEstart (fmt : Fmt) (s : State) : Host.Outcome State Fault Refusal := .next (estartBody fmt s).finish

/-- ADVANCE (R193). -/
def execAdvance (s : State) : Host.Outcome State Fault Refusal :=
  .next (withFormat .advanceSbEsb (fun _ => advanceBody Config.chip) s).finish

/-- PREP (R194). -/
def execPrep (s : State) : Host.Outcome State Fault Refusal :=
  .next (withFormat .prepare (prepBody Config.chip) s).finish

/-- ASSEMBLE (R197). -/
def execAssemble (s : State) : Host.Outcome State Fault Refusal :=
  .next (withFormat .assemble (assembleBody Config.chip) s).finish

/-- CALPHA (R200). -/
def execCalpha (s : State) : Host.Outcome State Fault Refusal :=
  .next (withFormat .alphabet (calphaBody Config.chip) s).finish

/-- CAPER (R202). -/
def execCaper (s : State) : Host.Outcome State Fault Refusal := .next (withFormat .aperiodicity caperBody s).finish

/-- COFFS (R204). -/
def execCoffs (s : State) : Host.Outcome State Fault Refusal :=
  .next (withFormat .offSynch (coffsBody Config.chip) s).finish

/-- CUNDER (R207). -/
def execCunder (s : State) : Host.Outcome State Fault Refusal :=
  .next (withFormat .undersampling (cunderBody Config.chip) s).finish

/-- EMIT (R208). -/
def execEmit (s : State) : Host.Outcome State Fault Refusal := .next (withFormat .emit emitBody s).finish

end Sys2Proof.Machine
end

