-- ==== Sys2Proof/Machine/Units.lean ====
section
/-! DEFINITION. The unit commands (40_units.md R127, R128, R133-R135). A body takes the configuration as an argument; the
command runs it with the installed one. -/

namespace Sys2Proof.Machine

/-- SUBENC (R127). -/
def subencBody (c : Config) (v : BitVec 10) (s : State) : BodyResult :=
  .ok { enter .unit s with res := (c.subEnc v).setWidth 32 }

/-- RES after SUBDEC (R128): bit 31 marks INVALID. -/
def subdecResult (c : Config) (w : BitVec 11) : Word :=
  match c.subDec w with
  | none => 0x80000000
  | some e => e.setWidth 32

/-- SUBDEC (R128). -/
def subdecBody (c : Config) (w : BitVec 11) (s : State) : BodyResult :=
  .ok { enter .unit s with res := subdecResult c w }

/-- SCRSEED (R133). -/
def scrseedBody (c : Config) (fmt : Fmt) (sb : BitVec 12) (s : State) : BodyResult :=
  .ok { enter .unit s with scr := c.scrInit (seedValue c fmt sb), res := seedValue c fmt sb }

/-- SCRSTEP (R134): RES is the output bit before the advance. -/
def scrstepBody (c : Config) (b : Bool) (s : State) : BodyResult :=
  .ok { enter .unit s with res := (BitVec.ofBool (scramblerOut s.scr)).setWidth 32, scr := c.scrAdv s.scr b }

/-- POLYREM by the divisor p (R135). REM takes the bits of the remainder it has (10_state.md R53, log entry 2). -/
def polyremBy (fmt : Fmt) (p : Nat) (s : State) : BodyResult :=
  let r := polyMod (telPoly fmt s.tel) p
  let s1 := { enter .unit s with rem := BitVec.ofNat 96 r.1 }
  if r.2 then .raised .divz .unit s1
  else .ok { s1 with res := if r.1 = 0 then 1 else 0 }

/-- POLYREM (R135). The reserved SEL = 3 is ILLEGAL (R135, 30_encoding.md R104), as when its word is decoded. -/
def polyremBody (c : Config) (fmt : Fmt) (sel : BitVec 2) (s : State) : BodyResult :=
  match selectedPoly c fmt sel with
  | none => .raised .illegal .decode s
  | some p => polyremBy fmt p s

/-- SUBENC (R127). -/
def execSubenc (v : BitVec 10) (s : State) : Host.Outcome State Fault Refusal :=
  .next (subencBody Config.chip v s).finish

/-- SUBDEC (R128). -/
def execSubdec (w : BitVec 11) (s : State) : Host.Outcome State Fault Refusal :=
  .next (subdecBody Config.chip w s).finish

/-- SCRSEED (R133). -/
def execScrseed (fmt : Fmt) (sb : BitVec 12) (s : State) : Host.Outcome State Fault Refusal :=
  .next (scrseedBody Config.chip fmt sb s).finish

/-- SCRSTEP (R134). -/
def execScrstep (b : Bool) (s : State) : Host.Outcome State Fault Refusal :=
  .next (scrstepBody Config.chip b s).finish

/-- POLYREM (R135). -/
def execPolyrem (fmt : Fmt) (sel : BitVec 2) (s : State) : Host.Outcome State Fault Refusal :=
  .next (polyremBody Config.chip fmt sel s).finish

end Sys2Proof.Machine
end

