-- ==== Sys2Proof/Machine/Dispatch.lean ====
section
/-! DEFINITION. The meaning of every command: one arm per constructor of Instr, in the order of spec/opcode_table.json. -/

namespace Sys2Proof.Machine

def exec (i : Instr) (s : State) : Host.Outcome State Fault Refusal :=
  match i with
  | .nop => Sys2Proof.Machine.execNop s
  | .sreset => Sys2Proof.Machine.execSreset s
  | .clrin => Sys2Proof.Machine.execClrin s
  | .decode => Sys2Proof.Machine.execDecode s
  | .detect => Sys2Proof.Machine.execDetect s
  | .window => Sys2Proof.Machine.execWindow s
  | .gcheck => Sys2Proof.Machine.execGcheck s
  | .fsynd => Sys2Proof.Machine.execFsynd s
  | .subst => Sys2Proof.Machine.execSubst s
  | .valid => Sys2Proof.Machine.execValid s
  | .invert => Sys2Proof.Machine.execInvert s
  | .descr => Sys2Proof.Machine.execDescr s
  | .final => Sys2Proof.Machine.execFinal s
  | .encode fmt => Sys2Proof.Machine.execEncode fmt s
  | .estart fmt => Sys2Proof.Machine.execEstart fmt s
  | .advance => Sys2Proof.Machine.execAdvance s
  | .prep => Sys2Proof.Machine.execPrep s
  | .assemble => Sys2Proof.Machine.execAssemble s
  | .calpha => Sys2Proof.Machine.execCalpha s
  | .caper => Sys2Proof.Machine.execCaper s
  | .coffs => Sys2Proof.Machine.execCoffs s
  | .cunder => Sys2Proof.Machine.execCunder s
  | .emit => Sys2Proof.Machine.execEmit s
  | .subenc v => Sys2Proof.Machine.execSubenc v s
  | .subdec w => Sys2Proof.Machine.execSubdec w s
  | .scrseed fmt sb => Sys2Proof.Machine.execScrseed fmt sb s
  | .scrstep b => Sys2Proof.Machine.execScrstep b s
  | .polyrem fmt sel => Sys2Proof.Machine.execPolyrem fmt sel s

end Sys2Proof.Machine
end

