-- ==== Sys2Proof/WellFormed.lean ====
section
/-! DEFINITION. What a well-formed command and a well-formed host access are. The well-formedness of a configuration
(00_scope.md R10) stands in Config.lean. -/

namespace Sys2Proof

/-- A command is well formed when no field holds a reserved value: the only reserved field value the syntax can hold is
SEL = 3 (30_encoding.md R105). -/
def Instr.wellFormed : Instr → Bool
  | .polyrem _ sel => sel != 3
  | _ => true

/-- A port offset the block serves: word aligned and inside the 4 KiB window (20_memory.md R71, R73; 93 I12). -/
def HostEvent.wellFormed : HostEvent → Bool
  | .read off => off % 4 == 0 && decide (off < 0x1000)
  | .write off _ => off % 4 == 0 && decide (off < 0x1000)
  | .waitIdle => true
  | .waitIrq => true
  | .externalReset => true

end Sys2Proof
end

