-- ==== Sys2Proof/Machine/HostPort.lean ====
section
/-! DEFINITION. The host port (20_memory.md R70-R82, 10_state.md R32) and the busy protocol (70_reset_and_hazards.md R280,
R282): what a read answers, what a write does, how one event of the outside is served, and how CORE runs the word in PEND. -/

namespace Sys2Proof.Machine

/-- The single-word registers of the port (10_state.md R32). -/
inductive PortReg where
  | id
  | ctrl
  | status
  | cmd
  | result
  | seq
  | format
  | inLen
  | inNib
  | inWord
  | sbStart
  | esbStart
  | esbStep
  | sb
  | esb
  | attempts
  | cond
  | synd
  | shift
  | ctrlbits
  | dwcount
  | outNibs
  | res
  | scrLo
  | scrHi
  | rem0
  | rem1
  | rem2
deriving DecidableEq, Repr

/-- The buffers of the port (10_state.md R32). -/
inductive PortBuf where
  | ubuf
  | tbuf
  | tel
  | ibuf
  | wbuf
  | pbuf
deriving DecidableEq, Repr

/-- What stands at a word of the port: a register, word w of a buffer, or nothing (10_state.md R32, 20_memory.md R74). -/
inductive Location where
  | reg (r : PortReg)
  | buf (b : PortBuf) (w : Nat)
  | unmapped
deriving DecidableEq, Repr

/-- The register at a byte offset (10_state.md R32). -/
def regAt (off : Nat) : Option PortReg :=
  match off with
  | 0x000 => some .id
  | 0x004 => some .ctrl
  | 0x008 => some .status
  | 0x00C => some .cmd
  | 0x010 => some .result
  | 0x014 => some .seq
  | 0x018 => some .format
  | 0x01C => some .inLen
  | 0x020 => some .inNib
  | 0x024 => some .inWord
  | 0x028 => some .sbStart
  | 0x02C => some .esbStart
  | 0x030 => some .esbStep
  | 0x034 => some .sb
  | 0x038 => some .esb
  | 0x03C => some .attempts
  | 0x040 => some .cond
  | 0x044 => some .synd
  | 0x048 => some .shift
  | 0x04C => some .ctrlbits
  | 0x050 => some .dwcount
  | 0x054 => some .outNibs
  | 0x058 => some .res
  | 0x05C => some .scrLo
  | 0x060 => some .scrHi
  | 0x064 => some .rem0
  | 0x068 => some .rem1
  | 0x06C => some .rem2
  | _ => none

/-- Where a buffer starts on the port (10_state.md R32). -/
def PortBuf.offset : PortBuf → Nat
  | .ubuf => 0x100
  | .tbuf => 0x200
  | .tel => 0x300
  | .ibuf => 0x400
  | .wbuf => 0x500
  | .pbuf => 0x600

/-- How many words of the port a buffer takes (10_state.md R32). -/
def PortBuf.words : PortBuf → Nat
  | .ubuf => 26
  | .tbuf => 32
  | .tel => 32
  | .ibuf => 32
  | .wbuf => 26
  | .pbuf => 29

/-- All buffers. -/
def allBufs : List PortBuf := [.ubuf, .tbuf, .tel, .ibuf, .wbuf, .pbuf]

/-- What stands at a word-aligned byte offset. -/
def locate (off : Nat) : Location :=
  match regAt off with
  | some r => .reg r
  | none =>
    match allBufs.find? fun b => decide (b.offset ≤ off ∧ off < b.offset + 4 * b.words) with
    | some b => .buf b ((off - b.offset) / 4)
    | none => .unmapped

/-- Word w of a buffer (20_memory.md R75): string bits 32w .. 32w+31, first bit at word bit 31, 0 beyond the buffer. -/
def readBufWord {n : Nat} (b : BitVec n) (w : Nat) : Word := slice (padTo 1024 b) (32 * w) 32

/-- A write of word w of a buffer (20_memory.md R75): bits beyond the buffer are ignored. -/
def writeBufWord {n : Nat} (b : BitVec n) (w : Nat) (v : Word) : BitVec n := slice (place (padTo 1024 b) (32 * w) v) 0 n

/-- What a register reads as (10_state.md R32-R53): its value, reserved bits 0 (R31); the push registers read 0. -/
def readReg (r : PortReg) (s : State) : Word :=
  match r with
  | .id => 0x45424331
  | .ctrl => (BitVec.ofBool s.ie).setWidth 32
  | .status => statusWord s
  | .cmd => s.cmd
  | .result => resultWord s
  | .seq => s.seq.code.setWidth 32
  | .format => (formatCode s.format).setWidth 32
  | .inLen => s.inLen.setWidth 32
  | .inNib => 0
  | .inWord => 0
  | .sbStart => s.sbStart.setWidth 32
  | .esbStart => s.esbStart.setWidth 32
  | .esbStep => s.esbStep.setWidth 32
  | .sb => s.sb.setWidth 32
  | .esb => s.esb.setWidth 32
  | .attempts => s.attempts.setWidth 32
  | .cond => s.cond.setWidth 32
  | .synd => s.synd.setWidth 32
  | .shift => s.shift.setWidth 32
  | .ctrlbits => s.ctrlbits.setWidth 32
  | .dwcount => s.dwcount.setWidth 32
  | .outNibs => s.outNibs.setWidth 32
  | .res => s.res
  | .scrLo => s.scr.extractLsb' 0 32
  | .scrHi => (s.scr.extractLsb' 32 1).setWidth 32
  | .rem0 => s.rem.extractLsb' 0 32
  | .rem1 => s.rem.extractLsb' 32 32
  | .rem2 => s.rem.extractLsb' 64 32

/-- What a buffer word reads as. -/
def readBuf (b : PortBuf) (w : Nat) (s : State) : Word :=
  match b with
  | .ubuf => readBufWord s.ubuf w
  | .tbuf => readBufWord s.tbuf w
  | .tel => readBufWord s.tel w
  | .ibuf => readBufWord s.ibuf w
  | .wbuf => readBufWord s.wbuf w
  | .pbuf => readBufWord s.pbuf w

/-- What a location reads as while BUSY = 0 (20_memory.md R71, R74). -/
def readLocation (l : Location) (s : State) : Word :=
  match l with
  | .reg r => readReg r s
  | .buf b w => readBuf b w s
  | .unmapped => 0

/-- The locations whose reads keep their meaning while BUSY = 1: ID, CTRL, STATUS, CMD (70_reset_and_hazards.md R282), and the
unmapped words, which read 0 (20_memory.md R71, R74; log entry 6). -/
def readableWhileBusy : Location → Bool
  | .reg .id => true
  | .reg .ctrl => true
  | .reg .status => true
  | .reg .cmd => true
  | .reg _ => false
  | .buf _ _ => false
  | .unmapped => true

/-- MemRead(off, 4) (20_memory.md R71): the answer goes to the host; nothing of the block changes. A busy read of any other
location answers a free value (70_reset_and_hazards.md R282, log entry 5). -/
def memRead (off : Nat) (s : State) : State :=
  if s.busy = true ∧ readableWhileBusy (locate off) = false then
    { s with responses := Config.busyRead s.busyReads :: s.responses, busyReads := s.busyReads + 1 }
  else { s with responses := readLocation (locate off) s :: s.responses }

/-- One hex digit pushed (20_memory.md R76): IN_LEN saturates at 0xFFFF (10_state.md R41). -/
def pushDigit (d : BitVec 4) (s : State) : State :=
  { s with
    ibuf := slice s.ibuf 4 1020 ++ d
    inLen := if s.inLen = 0xFFFF then s.inLen else s.inLen + 1 }

/-- Eight hex digits pushed, the most significant first (20_memory.md R76). -/
def pushWord (v : Word) (s : State) : State :=
  (List.range 8).foldl (fun s j => pushDigit (slice v (4 * j) 4) s) s

/-- How the busy protocol treats a write, by its location (70_reset_and_hazards.md R280). -/
inductive WriteClass where
  /-- Read-only or unmapped: ignored always. -/
  | ignored
  /-- CTRL and STATUS: performed always. -/
  | always
  /-- CMD: the issue rule (20_memory.md R80). -/
  | issue
  /-- Read-write registers and buffers, IN_NIB, IN_WORD: dropped while BUSY = 1. -/
  | guarded
deriving DecidableEq, Repr

/-- The class of a location (10_state.md R32, 70_reset_and_hazards.md R280). -/
def writeClass : Location → WriteClass
  | .reg .ctrl => .always
  | .reg .status => .always
  | .reg .cmd => .issue
  | .reg .format => .guarded
  | .reg .inNib => .guarded
  | .reg .inWord => .guarded
  | .reg .sbStart => .guarded
  | .reg .esbStart => .guarded
  | .reg .esbStep => .guarded
  | .reg _ => .ignored
  | .buf .ubuf _ => .guarded
  | .buf .tel _ => .guarded
  | .buf .wbuf _ => .guarded
  | .buf .pbuf _ => .guarded
  | .buf _ _ => .ignored
  | .unmapped => .ignored

/-- The effect of a performed write (20_memory.md R72): reserved bits are ignored (10_state.md R31). CMD is not written here
but issued (R80). -/
def storeLocation (l : Location) (v : Word) (s : State) : State :=
  match l with
  | .reg .ctrl => { s with ie := v.getLsbD 0 }
  | .reg .status => clearStatus v s
  | .reg .format => { s with format := formatOfCode (v.extractLsb' 0 2) }
  | .reg .inNib => pushDigit (v.extractLsb' 0 4) s
  | .reg .inWord => pushWord v s
  | .reg .sbStart => { s with sbStart := v.extractLsb' 0 12 }
  | .reg .esbStart => { s with esbStart := v.extractLsb' 0 10 }
  | .reg .esbStep => { s with esbStep := v.extractLsb' 0 10 }
  | .reg _ => s
  | .buf .ubuf w => { s with ubuf := writeBufWord s.ubuf w v }
  | .buf .tel w => { s with tel := writeBufWord s.tel w v }
  | .buf .wbuf w => { s with wbuf := writeBufWord s.wbuf w v }
  | .buf .pbuf w => { s with pbuf := writeBufWord s.pbuf w v }
  | .buf _ _ => s
  | .unmapped => s

/-- A write dropped because BUSY = 1 (70_reset_and_hazards.md R280). -/
def dropWrite (s : State) : State := { s with werr := true }

/-- A write to CMD (20_memory.md R80): accepted while idle; while busy only SRESET's word is performed. -/
def issue (v : Word) (s : State) : State :=
  if s.busy = false then accept v s
  else if v = 0x01000000 then softReset s
  else dropWrite s

/-- MemWrite(off, 4, v) (20_memory.md R72, 70_reset_and_hazards.md R280). -/
def memWrite (off : Nat) (v : Word) (s : State) : State :=
  match writeClass (locate off) with
  | .ignored => s
  | .always => storeLocation (locate off) v s
  | .issue => issue v s
  | .guarded => if s.busy = true then dropWrite s else storeLocation (locate off) v s

/-- An access at a checked offset: a program that names another offset is refused (20_memory.md R73, 93 I12). -/
def atOffset (off : Nat) (access : State → State) (s : State) : Host.Outcome State Fault Refusal :=
  if off % 4 ≠ 0 then .refused (.misalignedOffset off)
  else if 0x1000 ≤ off then .refused (.offsetOutOfRange off)
  else .next (access s)

/-- STATUS's offset (10_state.md R32). -/
def statusOffset : Nat := 0x008

/-- CMD's offset (10_state.md R32). -/
def cmdOffset : Nat := 0x00C

/-- Event e is served with the events of rest behind it. A wait whose condition does not hold yet stays first in line
(30_encoding.md R108, 20_memory.md R82); each poll of WAIT is a read of STATUS. -/
def serveEvent (e : HostEvent) (rest : List HostEvent) (s : State) : Host.Outcome State Fault Refusal :=
  match e with
  | .read off => atOffset off (memRead off) { s with host := rest }
  | .write off v => atOffset off (memWrite off v) { s with host := rest }
  | .waitIdle => .next (memRead statusOffset { s with host := if s.busy then e :: rest else rest })
  | .waitIrq => .next { s with host := if irq s then rest else e :: rest }
  | .externalReset => .next (resetBlock { s with host := rest })

/-- The outside moves: with nothing to come, an idle block keeps all its state (60_exceptions.md R258, log entry 9). The
latency counts served events down (log entry 4). -/
def hostStep (s : State) : Host.Outcome State Fault Refusal :=
  match s.host with
  | [] => .next s
  | e :: rest => serveEvent e rest { s with latency := s.latency - 1 }

/-- CORE's step Run(PEND) (70_reset_and_hazards.md R281): the word is decoded (30_encoding.md R104) and its rule performed. -/
def coreStep (w : Word) (s : State) : Host.Outcome State Fault Refusal :=
  match decode w with
  | .error _ => .next (illegalCommand s)
  | .ok i => exec i s

/-- One step of block and outside (70_reset_and_hazards.md R281, R286): CORE's step is enabled exactly when PEND holds a word;
it is taken once the command's free latency has been served, or nothing else is to come. -/
def blockStep (s : State) : Host.Outcome State Fault Refusal :=
  match s.pend with
  | none => hostStep s
  | some w => if s.latency = 0 ∨ s.host = [] then coreStep w s else hostStep s

/-- A run is over (70_reset_and_hazards.md R285). -/
def runOver (s : State) : Bool := s.host.isEmpty && s.pend.isNone

/-- The platform address of a port offset (20_memory.md R70, R88). -/
def busAddress (c : Config) (off : Nat) : Nat := c.base + off

/-- The level the block drives on the platform's interrupt input n (60_exceptions.md R250, IRQ_LINE). -/
def platformIrq (c : Config) (s : State) (n : Nat) : Bool := decide (n = c.irqLine) && irq s

end Sys2Proof.Machine
end

