-- ==== Sys2Proof/Machine/Step.lean ====
section
/-! DEFINITION. The step of the machine, and where the host's checks put an instruction. -/

namespace Sys2Proof.Machine

/-- One step (70_reset_and_hazards.md R281). -/
def step (s : State) : Host.Outcome State Fault Refusal := blockStep s

/-- s with the table row's word accepted as 20_memory.md R80 accepts it, and CORE's step due next (log entry 8): the block
fetches nothing, a command is what the host wrote to CMD. -/
def State.withFetchWord (s : State) (nbits w : Nat) : State :=
  { s with
    cmd := BitVec.ofNat 32 (w % 2 ^ nbits), pend := some (BitVec.ofNat 32 (w % 2 ^ nbits)), busy := true, done := false,
    latency := 0 }

end Sys2Proof.Machine
end

