-- ==== Sys2Proof/Machine/HostProgram.lean ====
section
/-! DEFINITION. Host programs (20_memory.md R77, 30_encoding.md R107, R108): the pseudo-instructions as lists of port accesses,
and the assembler syntax of the commands. Offsets are relative to BASE. -/

namespace Sys2Proof.Machine

/-- addr(reg) (10_state.md R32). -/
def PortReg.offset : PortReg → Nat
  | .id => 0x000
  | .ctrl => 0x004
  | .status => 0x008
  | .cmd => 0x00C
  | .result => 0x010
  | .seq => 0x014
  | .format => 0x018
  | .inLen => 0x01C
  | .inNib => 0x020
  | .inWord => 0x024
  | .sbStart => 0x028
  | .esbStart => 0x02C
  | .esbStep => 0x030
  | .sb => 0x034
  | .esb => 0x038
  | .attempts => 0x03C
  | .cond => 0x040
  | .synd => 0x044
  | .shift => 0x048
  | .ctrlbits => 0x04C
  | .dwcount => 0x050
  | .outNibs => 0x054
  | .res => 0x058
  | .scrLo => 0x05C
  | .scrHi => 0x060
  | .rem0 => 0x064
  | .rem1 => 0x068
  | .rem2 => 0x06C

/-- Eight hex digits as a word, the first most significant (R77, R108). -/
def digitsWord (a b c d e f g h : BitVec 4) : Word := a ++ b ++ c ++ d ++ e ++ f ++ g ++ h

/-- PUSHHEX (R108): whole groups of eight digits to IN_WORD, each remaining digit to IN_NIB. -/
def pushHex : List (BitVec 4) → List HostEvent
  | a :: b :: c :: d :: e :: f :: g :: h :: rest =>
    .write PortReg.inWord.offset (digitsWord a b c d e f g h) :: pushHex rest
  | ds => ds.map fun d => .write PortReg.inNib.offset (d.setWidth 32)

/-- Hex digits as words, the last padded with 0 digits (R108, LOADBUF). -/
def digitWords : List (BitVec 4) → List Word
  | a :: b :: c :: d :: e :: f :: g :: h :: rest => digitsWord a b c d e f g h :: digitWords rest
  | [] => []
  | ds => [ds.foldl (fun (acc : Word) d => (acc <<< 4) ||| d.setWidth 32) 0 <<< (4 * (8 - ds.length))]

/-- A line of a host program: a command or a pseudo-instruction (R107, R108). -/
inductive HostOp where
  | command (i : Instr)
  | wr (off : Nat) (v : Word)
  | rd (off : Nat)
  | wait
  | run (i : Instr)
  | pushHex (digits : List (BitVec 4))
  | loadBuf (b : PortBuf) (digits : List (BitVec 4))
  | readBuf (b : PortBuf) (digits : Nat)
deriving DecidableEq, Repr

/-- The accesses a line stands for (R107, R108). -/
def HostOp.events : HostOp → List HostEvent
  | .command i => [.write cmdOffset (Sys2Proof.encode i)]
  | .wr off v => [.write off v]
  | .rd off => [.read off]
  | .wait => [.waitIdle]
  | .run i => [.write cmdOffset (Sys2Proof.encode i), .waitIdle]
  | .pushHex ds => Sys2Proof.Machine.pushHex ds
  | .loadBuf b ds => (digitWords ds).mapIdx fun w v => .write (b.offset + 4 * w) v
  | .readBuf b d => (List.range ((d + 7) / 8)).map fun w => .read (b.offset + 4 * w)

/-- The accesses of a whole program, in order. -/
def programEvents (p : List HostOp) : List HostEvent := p.flatMap HostOp.events

/-- The nibble of a hexadecimal character (R77); other characters cannot be pushed. -/
def hexValue (c : Char) : Option Nat :=
  if 48 ≤ c.toNat ∧ c.toNat ≤ 57 then some (c.toNat - 48)
  else if 65 ≤ c.toNat ∧ c.toNat ≤ 70 then some (c.toNat - 55)
  else if 97 ≤ c.toNat ∧ c.toNat ≤ 102 then some (c.toNat - 87)
  else none

/-- A hex string's digits (R77). -/
def hexDigits (cs : List Char) : Option (List (BitVec 4)) := cs.mapM fun c => (hexValue c).map (BitVec.ofNat 4)

/-- Why a line is not assembled (R107). -/
inductive AsmError where
  | unknownMnemonic
  | operandCount
  | badNumber
  | badName
  /-- An operand that does not fit its field is an assembly error, not an encoding (R107). -/
  | operandTooWide
deriving DecidableEq, Repr

/-- Case folding of the mnemonics (R107). -/
def upperChar (c : Char) : Char := if 97 ≤ c.toNat ∧ c.toNat ≤ 122 then Char.ofNat (c.toNat - 32) else c

/-- A number in base b (R107). -/
def parseBase (b : Nat) (cs : List Char) : Option Nat :=
  if cs = [] then none
  else cs.foldl (fun acc c => acc.bind fun n => (hexValue c).bind fun d => if d < b then some (b * n + d) else none) (some 0)

/-- A decimal number, or a hexadecimal one with the prefix 0x (R107). -/
def parseNumber : List Char → Option Nat
  | '0' :: 'x' :: cs => parseBase 16 cs
  | cs => parseBase 10 cs

/-- A number that fits a k-bit field (R107). -/
def parseField (k : Nat) (cs : List Char) : Except AsmError (BitVec k) :=
  match parseNumber cs with
  | none => .error .badNumber
  | some n => if n < 2 ^ k then .ok (BitVec.ofNat k n) else .error .operandTooWide

/-- A format name (R107). -/
def parseFmt (cs : List Char) : Except AsmError Fmt :=
  if cs = ['S', 'H', 'O', 'R', 'T'] then .ok .short
  else if cs = ['L', 'O', 'N', 'G'] then .ok .long
  else .error .badName

/-- A polynomial name (R107). -/
def parseSel (cs : List Char) : Except AsmError (BitVec 2) :=
  if cs = ['F'] then .ok 0
  else if cs = ['G'] then .ok 1
  else if cs = ['F', 'G'] then .ok 2
  else .error .badName

/-- The mnemonics without operands: format N (R103, R107). -/
def plainMnemonics : List (String × Instr) :=
  [("NOP", .nop), ("SRESET", .sreset), ("CLRIN", .clrin), ("DECODE", .decode), ("DETECT", .detect),
   ("WINDOW", .window), ("GCHECK", .gcheck), ("FSYND", .fsynd), ("SUBST", .subst), ("VALID", .valid),
   ("INVERT", .invert), ("DESCR", .descr), ("FINAL", .final), ("ADVANCE", .advance), ("PREP", .prep),
   ("ASSEMBLE", .assemble), ("CALPHA", .calpha), ("CAPER", .caper), ("COFFS", .coffs), ("CUNDER", .cunder),
   ("EMIT", .emit)]

/-- One command from its mnemonic (already in capitals) and its operands (R107). -/
def assembleCommand (mnemonic : String) (ops : List (List Char)) : Except AsmError Instr :=
  match plainMnemonics.lookup mnemonic with
  | some i => if ops = [] then .ok i else .error .operandCount
  | none =>
    match mnemonic, ops with
    | "ENCODE", [f] => (parseFmt f).map Instr.encode
    | "ESTART", [f] => (parseFmt f).map Instr.estart
    | "SUBENC", [v] => (parseField 10 v).map Instr.subenc
    | "SUBDEC", [v] => (parseField 11 v).map Instr.subdec
    | "SCRSTEP", [v] => (parseField 1 v).map fun b => .scrstep (b == 1)
    | "SCRSEED", [f, v] => (parseFmt f).bind fun fmt => (parseField 12 v).map (Instr.scrseed fmt)
    | "POLYREM", [f, p] => (parseFmt f).bind fun fmt => (parseSel p).map (Instr.polyrem fmt)
    | m, _ =>
      if m ∈ ["ENCODE", "ESTART", "SUBENC", "SUBDEC", "SCRSTEP", "SCRSEED", "POLYREM"] then .error .operandCount
      else .error .unknownMnemonic

/-- The words of a line: what white space and commas separate (log entry 15). -/
def lineWords (cs : List Char) : List (List Char) :=
  (cs.splitBy fun a b => (isSep a) == (isSep b)).filter fun w => !(w.all isSep)
where
  /-- A separator: white space or a comma. -/
  isSep (c : Char) : Bool := c == ' ' || c == '\t' || c == ','

/-- What follows a label's colon (R107), or the whole line. -/
def afterLabel (cs : List Char) : List Char :=
  if ':' ∈ cs then (cs.dropWhile fun c => c != ':').drop 1 else cs

/-- One line of assembly (R107): [label:] MNEMONIC [operands] [; comment]. A line with no mnemonic assembles to nothing. -/
def assembleLine (line : List Char) : Except AsmError (Option Instr) :=
  match lineWords (afterLabel (line.takeWhile fun c => c != ';')) with
  | [] => .ok none
  | m :: ops => (assembleCommand (String.ofList (m.map upperChar)) ops).map some

end Sys2Proof.Machine
end

