-- ==== Sys2Proof/Safety.lean ====
section
/-! DEFINITION. What counts as a good state and a safe run, in the words the statements use. -/

namespace Sys2Proof.Machine

/-- BUSY, PEND, CMD and DONE agree (10_state.md R37, R38, R64; 20_memory.md R80): a word is in flight exactly while BUSY = 1,
CMD holds it, and DONE is 0 until the command ends. -/
def State.FlightOk (s : State) : Prop :=
  s.busy = s.pend.isSome ∧ (∀ w, s.pend = some w → s.cmd = w ∧ s.done = false)

/-- SEQ and RESULT agree (10_state.md R33, R39; 60_exceptions.md R244, R245): reset state, success, or failure. -/
def State.ResultOk (s : State) : Prop :=
  (s.seq = .idle ∧ s.resultCode = .ok ∧ s.resultStage = .idle) ∨
  (s.seq = .done ∧ s.resultCode = .ok ∧ s.resultStage = .done) ∨
  (s.seq = .failed ∧ s.resultCode ≠ .ok ∧ s.resultStage ≠ .done)

/-- The registers whose range is narrower than their width: ATTEMPTS (10_state.md R44), SHIFT (R47), DWCOUNT (R49), OUT_NIBS
(R50), and TBUF's last bit, which no format uses (R57). -/
def State.RangesOk (s : State) : Prop :=
  s.attempts.toNat ≤ 4194304 ∧ s.shift.toNat < 1023 ∧ s.dwcount.toNat ≤ 83 ∧
  (s.outNibs = 0 ∨ s.outNibs = 53 ∨ s.outNibs = 208 ∨ s.outNibs = 86 ∨ s.outNibs = 256) ∧
  bitAt s.tbuf 1023 = false

/-- The invariant of every state a run reaches. -/
def State.Inv (s : State) : Prop := s.FlightOk ∧ s.ResultOk ∧ s.RangesOk

/-- A host program inside the port's contract (93 I12). -/
def hostOk (s : State) : Bool := s.host.all HostEvent.wellFormed

/-- Two states agree on the block's output buffers and on what the host may take as output (41_decode.md R176, 42_encode.md
R210). -/
def SameOutput (s t : State) : Prop := t.ubuf = s.ubuf ∧ t.tbuf = s.tbuf

end Sys2Proof.Machine
end

