-- ==== Sys2Proof/Certificates/Slice0/Obligations.lean ====
section
/-! DEFINITION. The statements for the provers. The helpers below say in the spec's own terms (bits, sums, numbers) what the
commands do; they do not use the definitions of the meanings, but for the remainder polyMod (which has statements of its
own), the slices of strings, and the port map. A statement about an exec holds for every well-formed configuration: nothing
is known of Config.chip but 00_scope.md R10. -/

namespace Sys2Proof.Machine.Claims

/-! ### How a command ends -/

/-- s after a completion with OK (60_exceptions.md R245). -/
def endedOk (s : State) : State :=
  { s with resultCode := .ok, resultStage := .done, seq := .done, pend := none, busy := false, done := true }

/-- s after a raise (60_exceptions.md R244). -/
def endedBy (code : ResultCode) (stage : SeqState) (s : State) : State :=
  { s with resultCode := code, resultStage := stage, seq := .failed, pend := none, busy := false, done := true }

/-- i's word is w and no other word decodes to i. -/
def OnlyWord (w : Word) (i : Instr) : Prop := ∀ w', decode w' = .ok i ↔ w' = w

/-- A step command (30_encoding.md R106): its word, SEQ_ERR at its own state without a format (nothing else changes), and its
effect in every format. -/
def StepCommand (w : Word) (i : Instr) (own : SeqState) (effect : Fmt → State → Prop) : Prop :=
  OnlyWord w i ∧ ∀ s : State,
    match s.format with
    | none => exec i s = .next (endedBy .seqErr own s)
    | some f => effect f s

/-- A command that ran in s has ended in t, with OK or with one failure (60_exceptions.md R240, R244, R245, R250). -/
def Ended (s t : State) : Prop :=
  t.pend = none ∧ t.busy = false ∧ t.done = true ∧ t.ie = s.ie ∧ irq t = s.ie ∧
  ((t.resultCode = .ok ∧ t.resultStage = .done ∧ t.seq = .done) ∨
   (t.resultCode ≠ .ok ∧ t.resultStage ≠ .done ∧ t.seq = .failed))

/-- CORE's step is due for the word in PEND (70_reset_and_hazards.md R281). -/
def CoreDue (w : Word) (s : State) : Prop := s.pend = some w ∧ (s.latency = 0 ∨ s.host = [])

/-! ### Command words -/

/-- The bits a command of this opcode does not use (30_encoding.md R101), RSV among them. -/
def unusedBits (opc : Nat) : Word :=
  if opc = 0x20 ∨ opc = 0x21 then 0x007FFFFF
  else if opc = 0x30 then 0x00FFFC00
  else if opc = 0x31 then 0x00FFF800
  else if opc = 0x32 then 0x007FF000
  else if opc = 0x33 then 0x00FFFFFE
  else if opc = 0x34 then 0x001FFFFF
  else 0x00FFFFFF

/-- The word uses a reserved encoding (30_encoding.md R105). -/
def UsesReserved (w : Word) : Prop :=
  (0x03 ≤ w.toNat / 2 ^ 24 ∧ w.toNat / 2 ^ 24 ≤ 0x0F) ∨ (0x1A ≤ w.toNat / 2 ^ 24 ∧ w.toNat / 2 ^ 24 ≤ 0x1F) ∨
  (0x2A ≤ w.toNat / 2 ^ 24 ∧ w.toNat / 2 ^ 24 ≤ 0x2F) ∨ 0x35 ≤ w.toNat / 2 ^ 24 ∨
  w &&& 0x001FF000 ≠ 0 ∨ w &&& unusedBits (w.toNat / 2 ^ 24) ≠ 0 ∨
  (w.toNat / 2 ^ 24 = 0x34 ∧ w &&& 0x00600000 = 0x00600000)

/-- Every word of this opcode that uses a reserved bit or a reserved selector ends ILLEGAL (30_encoding.md R104). -/
def UnusedBitsIllegal (opc : Nat) : Prop :=
  ∀ s w, CoreDue w s → w.toNat / 2 ^ 24 = opc →
    w &&& unusedBits opc ≠ 0 ∨ (opc = 0x34 ∧ w &&& 0x00600000 = 0x00600000) →
    step s = .next (endedBy .illegal .decode s)

/-- The divisor of SEL 0, 1, 2 (30_encoding.md R102). -/
def divisorOf (c : Config) (f : Fmt) (sel : BitVec 2) : Nat :=
  if sel = 0 then c.fPoly f else if sel = 1 then c.gPoly f else c.fgPoly f

/-! ### Telegrams, blocks, words -/

/-- T⟨i⟩ for an integer i (42_encode.md R199). -/
def cycBit (f : Fmt) (tel : BitVec 1023) (i : Int) : Bool := bitAt tel (i % (f.N : Int)).toNat

/-- The 11-bit value whose bits are g 0 (most significant) to g 10. -/
def block (g : Nat → Bool) : BitVec 11 := packBits 11 g

/-- Valid of the block g (40_units.md R125). -/
def ValidBlock (c : Config) (g : Nat → Bool) : Prop := (c.subDec (block g)).isSome = true

/-- Word j of a string of 10-bit words. -/
def word10 {n : Nat} (b : BitVec n) (j : Nat) : BitVec 10 := packBits 10 fun i => bitAt b (10 * j + i)

/-- Bit j of the header of a pair (40_units.md R121): HDR = 2^22 + sb·2^10 + esb, most significant bit first. -/
def headerBit (sb : BitVec 12) (esb : BitVec 10) (j : Nat) : Bool :=
  (2 ^ 22 + sb.toNat * 1024 + esb.toNat).testBit (24 - j)

/-- The candidate's blocks are all codewords (42_encode.md R200). -/
def AllBlocksValid (c : Config) (f : Fmt) (tel : BitVec 1023) : Prop :=
  ∀ j < f.N / 11, ValidBlock c fun i => bitAt tel (11 * j + i)

/-- v has no run of more than m consecutive true elements among its first n (42_encode.md R205). -/
def NoRunOver (v : Nat → Prop) (n m : Nat) : Prop := ∀ a, a + (m + 1) ≤ n → ∃ j, a ≤ j ∧ j < a + (m + 1) ∧ ¬v j

/-- R201: at every block and every shift the two 22-bit windows differ in 3 places (2 where the shift is not 0). For LONG, d is
346. -/
def Aperiodic (f : Fmt) (tel : BitVec 1023) : Prop :=
  ∀ j < f.N / 11, ∀ k : Int, -3 ≤ k → k ≤ 3 →
    (if k = 0 then 3 else 2) ≤ (List.range 22).countP fun i =>
      cycBit f tel (11 * (j : Int) + i) != cycBit f tel (11 * (j : Int) - (f.N / 3 + 5 : Nat) + k + i)

/-- R203, R204: at each of eleven offsets into the doubled telegram no run of codewords is longer than its maximum. -/
def OffSynchSafe (c : Config) (f : Fmt) (tel : BitVec 1023) : Prop :=
  ∀ o < 11, NoRunOver (fun j => ValidBlock c fun i => bitAt tel ((o + 11 * j + i) % f.N)) ((2 * f.N - o) / 11)
    (c.osMax f o).toNat

/-- R206, R207: no sequence sampled every 2, 4, 8 or 16 bits has a run of more than 30 codewords. -/
def UndersamplingSafe (c : Config) (f : Fmt) (tel : BitVec 1023) : Prop :=
  ∀ k ∈ [2, 4, 8, 16], ∀ o < 11 * k,
    NoRunOver (fun j => ValidBlock c fun i => bitAt tel (o + k * (11 * j + i))) ((f.N - o + k - 1) / k / 11) 30

/-- WBUF old is scrambled (or descrambled) to new by SCR states that start at the seed of sb and end at last (40_units.md
R131, R132). -/
def ScrambledBy (c : Config) (f : Fmt) (sb : BitVec 12) (dir : ScrambleDir) (old new : BitVec 830) (last : BitVec 33) :
    Prop :=
  ∃ g : Nat → BitVec 33, g 0 = c.scrInit (BitVec.ofNat 32 ((c.scrMult f).toNat * sb.toNat)) ∧
    (∀ i < f.M, bitAt new i = (bitAt old i ^^ (g i).getLsbD 0) ∧
      g (i + 1) = c.scrAdv (g i) (if (c.scrFb = .cipher) ↔ (dir = .enc) then bitAt new i else bitAt old i)) ∧
    last = g f.M ∧ ∀ i, f.M ≤ i → bitAt new i = false

/-- An input length that DETECT takes for f (41_decode.md R161). -/
def SelectsFormat (f : Fmt) (len : BitVec 16) : Prop :=
  match f with
  | .short => 86 ≤ len.toNat ∧ len.toNat ≤ 255
  | .long => 256 ≤ len.toNat

/-- v decoded the telegram t that was built from the payload and SB of s (95 S1): the payload with a zero trailer. -/
def DecodedAs (f : Fmt) (s t v : State) (shift : Nat) (inverted : Bool) : Prop :=
  (∀ i < f.M, bitAt v.ubuf i = bitAt s.ubuf i) ∧ (∀ i, f.M ≤ i → bitAt v.ubuf i = false) ∧
  v.outNibs.toNat = f.UN ∧ v.sb = s.sb ∧ v.tel = t.tel ∧ v.shift.toNat = shift ∧ v.invused = inverted

/-- The telegram the encoder builds, PREP then ASSEMBLE (42_encode.md R190). -/
def Builds (c : Config) (f : Fmt) (s t : State) : Prop := (prepBody c f s).andThen (assembleBody c f) = .ok t

/-! ### The search -/

/-- Inc() on numbers (42_encode.md R192). -/
def incNumbers (step : Nat) (p : Nat × Nat) : Nat × Nat :=
  if 1024 ≤ p.2 + step then ((p.1 + 1) % 4096, p.2 + step - 1024) else (p.1, p.2 + step)

/-- The pair k increments after p. -/
def incTimes (step : Nat) : Nat → Nat × Nat → Nat × Nat
  | 0, p => p
  | k + 1, p => incNumbers step (incTimes step k p)

/-- ESB_STEP, 0 acting as 1 (42_encode.md R192). -/
def stepOf (s : State) : Nat := if s.esbStep.toNat = 0 then 1 else s.esbStep.toNat

/-- The k-th pair an ADVANCE from s looks at, from 0 (42_encode.md R193). -/
def lookedAt (s : State) (k : Nat) : Nat × Nat :=
  incTimes (stepOf s) (if s.first then k else k + 1) (s.sb.toNat, s.esb.toNat)

/-- Both header windows of a pair are codewords (42_encode.md R193). -/
def HeaderOk (c : Config) (p : Nat × Nat) : Prop :=
  (c.subDec (BitVec.ofNat 11 ((2 ^ 22 + p.1 * 1024 + p.2) / 2 ^ 14))).isSome = true ∧
  (c.subDec (BitVec.ofNat 11 ((2 ^ 22 + p.1 * 1024 + p.2) / 2 ^ 3))).isSome = true

/-! ### Running step commands one after another (30_encoding.md R106, 95 PR4) -/

/-- The step commands of a list, issued one after another until one does not end with OK. -/
def runSteps : List Instr → State → State
  | [], s => s
  | i :: is, s =>
    match exec i s with
    | .next t => if t.resultCode = .ok then runSteps is t else t
    | .fault _ => s
    | .refused _ => s

/-- The decoder stepped by the host (95 PR4): after a CTRL_ERR of VALID it inverts once. -/
def decodeBySteps (s : State) : State :=
  let u := runSteps [.detect, .window, .gcheck, .fsynd, .subst, .valid] { s with outNibs := 0, invused := false }
  if u.resultCode = .ok then runSteps [.descr, .final] u
  else if u.resultCode = .ctrlErr then runSteps [.invert, .valid, .descr, .final] u
  else u

/-- The encoder stepped by the host: after a REJECT it goes on with the next pair, at most n times. -/
def searchBySteps : Nat → State → State
  | 0, s => s
  | n + 1, s =>
    let u := runSteps [.advance, .prep, .assemble, .calpha, .caper, .coffs, .cunder, .emit] s
    if u.resultCode = .reject then searchBySteps n u else u

/-! ### The port -/

/-- Bit i of a buffer. -/
def bufBit (b : PortBuf) (s : State) (i : Nat) : Bool :=
  match b with
  | .ubuf => bitAt s.ubuf i
  | .tbuf => bitAt s.tbuf i
  | .tel => bitAt s.tel i
  | .ibuf => bitAt s.ibuf i
  | .wbuf => bitAt s.wbuf i
  | .pbuf => bitAt s.pbuf i

/-- The length of a buffer (10_state.md R32). -/
def bufLength : PortBuf → Nat
  | .ubuf => 832
  | .tbuf => 1024
  | .tel => 1023
  | .ibuf => 1024
  | .wbuf => 830
  | .pbuf => 913

/-- The state SRESET leaves (43_control.md R231, 70_reset_and_hazards.md R271). -/
def afterSreset (s : State) : State :=
  { State.reset with
    ie := s.ie, cmd := 0x01000000, seq := .done, resultCode := .ok, resultStage := .done, done := true,
    host := s.host, responses := s.responses, latency := s.latency, accepted := s.accepted, busyReads := s.busyReads }

/-- An offset of a read-write register other than CTRL, of a push register, or of a read-write buffer (10_state.md R32). -/
def GuardedOffset (off : Nat) : Prop :=
  off ∈ [0x018, 0x020, 0x024, 0x028, 0x02C, 0x030] ∨ (0x100 ≤ off ∧ off ≤ 0x164) ∨ (0x300 ≤ off ∧ off ≤ 0x37C) ∨
  (0x500 ≤ off ∧ off ≤ 0x564) ∨ (0x600 ≤ off ∧ off ≤ 0x670)

/-- An offset of a read-only register or a word of a read-only buffer (10_state.md R32). -/
def ReadOnlyOffset (off : Nat) : Prop :=
  off ∈ [0x000, 0x010, 0x014, 0x01C, 0x034, 0x038, 0x03C, 0x040, 0x044, 0x048, 0x04C, 0x050, 0x054, 0x058, 0x05C, 0x060, 0x064,
    0x068, 0x06C] ∨
  (off % 4 = 0 ∧ ((0x200 ≤ off ∧ off ≤ 0x27C) ∨ (0x400 ≤ off ∧ off ≤ 0x47C)))

/-- An unmapped word of the port (20_memory.md R74). -/
def UnmappedOffset (off : Nat) : Prop :=
  off % 4 = 0 ∧ ((0x070 ≤ off ∧ off ≤ 0x0FC) ∨ (0x168 ≤ off ∧ off ≤ 0x1FC) ∨ (0x280 ≤ off ∧ off ≤ 0x2FC) ∨
    (0x380 ≤ off ∧ off ≤ 0x3FC) ∨ (0x480 ≤ off ∧ off ≤ 0x4FC) ∨ (0x568 ≤ off ∧ off ≤ 0x5FC) ∨ (0x674 ≤ off ∧ off ≤ 0xFFC))

/-- The codes of the states (10_state.md R34). -/
def stateNumber : SeqState → Nat
  | .idle => 0x00
  | .detectFormat => 0x01
  | .slideWindow => 0x02
  | .checkSyndrome => 0x03
  | .substitute => 0x04
  | .validateControl => 0x05
  | .invert => 0x06
  | .descramble => 0x07
  | .finalize => 0x08
  | .done => 0x09
  | .failed => 0x0A
  | .encStart => 0x11
  | .advanceSbEsb => 0x12
  | .prepare => 0x13
  | .assemble => 0x14
  | .alphabet => 0x15
  | .aperiodicity => 0x16
  | .offSynch => 0x17
  | .undersampling => 0x18
  | .emit => 0x19
  | .unit => 0x20
  | .control => 0x21
  | .decode => 0x30

/-- The result codes (60_exceptions.md R241). -/
def resultNumber : ResultCode → Nat
  | .ok => 0
  | .fmtErr => 1
  | .synErr => 2
  | .subErr => 3
  | .ctrlErr => 4
  | .exhausted => 5
  | .reject => 6
  | .illegal => 7
  | .seqErr => 8
  | .divz => 9

/-- FORMAT's codes (10_state.md R40). -/
def formatNumber : Option Fmt → Nat
  | none => 0
  | some .short => 1
  | some .long => 2

/-- What the word of a register reads as, as a number (10_state.md R32). -/
def readNumber (off : Nat) (s : State) : Nat := (readLocation (locate off) s).toNat

/-- What every register of the port reads as while its value may be read (10_state.md R32-R53): its number, reserved bits 0 (R31);
IN_NIB and IN_WORD read 0; SCR and REM stand in two and three words. -/
def RegistersRead (s : State) : Prop :=
  readNumber 0x000 s = 0x45424331 ∧ readNumber 0x004 s = s.ie.toNat ∧ readNumber 0x008 s = (statusWord s).toNat ∧
  readNumber 0x00C s = s.cmd.toNat ∧ readNumber 0x010 s = stateNumber s.resultStage * 256 + resultNumber s.resultCode ∧
  readNumber 0x014 s = stateNumber s.seq ∧ readNumber 0x018 s = formatNumber s.format ∧
  readNumber 0x01C s = s.inLen.toNat ∧ readNumber 0x020 s = 0 ∧ readNumber 0x024 s = 0 ∧
  readNumber 0x028 s = s.sbStart.toNat ∧ readNumber 0x02C s = s.esbStart.toNat ∧ readNumber 0x030 s = s.esbStep.toNat ∧
  readNumber 0x034 s = s.sb.toNat ∧ readNumber 0x038 s = s.esb.toNat ∧ readNumber 0x03C s = s.attempts.toNat ∧
  readNumber 0x040 s = s.cond.toNat ∧ readNumber 0x044 s = s.synd.toNat ∧ readNumber 0x048 s = s.shift.toNat ∧
  readNumber 0x04C s = s.ctrlbits.toNat ∧ readNumber 0x050 s = s.dwcount.toNat ∧ readNumber 0x054 s = s.outNibs.toNat ∧
  readNumber 0x058 s = s.res.toNat ∧ readNumber 0x05C s + 2 ^ 32 * readNumber 0x060 s = s.scr.toNat ∧
  readNumber 0x064 s + 2 ^ 32 * readNumber 0x068 s + 2 ^ 64 * readNumber 0x06C s = s.rem.toNat

end Sys2Proof.Machine.Claims

open Sys2Proof Sys2Proof.Machine Sys2Proof.Machine.Claims

/-! ### Command words -/

/-- Decode and encode agree on every well-formed command (30_encoding.md R101-R103). -/
def Obligations.DecodeOfEncode : Prop := ∀ i : Instr, i.wellFormed = true → decode (encode i) = .ok i

/-- A word the decoder accepts is well formed and is its command's one encoding (R101-R104). -/
def Obligations.EncodeOfDecode : Prop := ∀ w i, decode w = .ok i → i.wellFormed = true ∧ encode i = w

/-- Words written out from R101-R103, and what they decode to. -/
def Obligations.WrittenWordsDecode : Prop :=
  decode 0x01000000 = .ok .sreset ∧ decode 0x19000000 = .ok .final ∧ decode 0x20800000 = .ok (.encode .long) ∧
  decode 0x30000155 = .ok (.subenc 0x155) ∧ decode 0x32800123 = .ok (.scrseed .long 0x123) ∧
  decode 0x33000001 = .ok (.scrstep true) ∧ decode 0x34A00000 = .ok (.polyrem .long 1)

/-- R105 (with R104): every word that uses a reserved encoding ends ILLEGAL at the state Decode; only RESULT, SEQ, PEND and
STATUS change. -/
def Obligations.ReservedWordsEndIllegal : Prop :=
  ∀ s w, CoreDue w s → UsesReserved w → step s = .next (endedBy .illegal .decode s)

/-! ### The step -/

/-- A step of CORE runs the command PEND decodes to (R104, R281). -/
def Obligations.StepRunsDecodedCommand : Prop :=
  ∀ s w i, CoreDue w s → decode w = .ok i → step s = exec i s

/-- A step of the outside serves its next event: an access (R71, R72), refused outside the port's contract (93 I12); the external
reset, which leaves the reset state (R270, R271), the model's own fields kept (log entry 10); a poll of WAIT, which reads STATUS and
stays first in line while BUSY = 1 (R108); the wait for IRQ, which stays first in line until IRQ = 1 (R82, R250; log entry 16). -/
def Obligations.StepServesHostAccess : Prop :=
  ∀ s rest, (s.pend = none ∨ s.latency ≠ 0) →
    (∀ off v,
      (off % 4 = 0 → off < 0x1000 →
        (s.host = .write off v :: rest →
          step s = .next (memWrite off v { s with host := rest, latency := s.latency - 1 })) ∧
        (s.host = .read off :: rest → step s = .next (memRead off { s with host := rest, latency := s.latency - 1 }))) ∧
      (off % 4 ≠ 0 →
        (s.host = .write off v :: rest → step s = .refused (.misalignedOffset off)) ∧
        (s.host = .read off :: rest → step s = .refused (.misalignedOffset off))) ∧
      (off % 4 = 0 → 0x1000 ≤ off →
        (s.host = .write off v :: rest → step s = .refused (.offsetOutOfRange off)) ∧
        (s.host = .read off :: rest → step s = .refused (.offsetOutOfRange off)))) ∧
    (s.host = .externalReset :: rest → step s = .next { State.reset with
      host := rest, responses := s.responses, latency := s.latency - 1, accepted := s.accepted, busyReads := s.busyReads }) ∧
    (s.host = .waitIdle :: rest → step s = .next { s with
      host := if s.busy then .waitIdle :: rest else rest, latency := s.latency - 1,
      responses := statusWord s :: s.responses }) ∧
    (s.host = .waitIrq :: rest → step s = .next { s with
      host := if s.ie ∧ s.done then rest else .waitIrq :: rest, latency := s.latency - 1 })

/-- With nothing in flight and nothing to come the block keeps all its state (R258; that the step is a next state is the
model's choice, log entry 9). -/
def Obligations.IdleBlockKeepsItsState : Prop := ∀ s : State, s.pend = none → s.host = [] → step s = .next s

/-- Progress (R286): a command in flight ends, or is discarded, within its latency and one more step, if the host keeps the
port's contract. That the latency is a count of served events is the model's choice (log entry 4). -/
def Obligations.CommandInFlightEnds : Prop :=
  ∀ s : State, s.busy = true → s.pend.isSome = true → hostOk s = true →
    ∃ k t, k ≤ s.latency + 1 ∧ Host.Core.run Sys2Proof.core k s = .next t ∧ t.pend = none

/-- The state after reset satisfies the invariant. -/
def Obligations.ResetSatisfiesInvariant : Prop := State.reset.Inv

/-- Every step keeps the invariant: BUSY, PEND, CMD and DONE agree, SEQ and RESULT agree, ATTEMPTS ≤ 2^22, SHIFT, DWCOUNT and
OUT_NIBS stay in their ranges (R33, R37, R38, R39, R44, R47, R49, R50, R64). -/
def Obligations.StepKeepsInvariant : Prop := ∀ s t : State, s.Inv → step s = .next t → t.Inv

/-- Every accepted command, and every accepted word, ends exactly once, with OK or with a failure code, sets DONE, frees the block,
and raises IRQ when CTRL.IE is 1 (R240, R244, R245, R250, R287). -/
def Obligations.EveryCommandEndsOnce : Prop :=
  (∀ i s, ∃ t, exec i s = .next t ∧ Ended s t) ∧ ∀ s w, CoreDue w s → ∃ t, step s = .next t ∧ Ended s t

/-- No command but SRESET writes CTRL, WERR, CMD, the start registers or the model's record of the host; and none but CLRIN and
SRESET writes the input stream (R42, R36, R37, R38, R58, R232). -/
def Obligations.CommandsKeepHostInputs : Prop :=
  ∀ i s t, exec i s = .next t → i ≠ .sreset →
    t.ie = s.ie ∧ t.werr = s.werr ∧ t.cmd = s.cmd ∧ t.sbStart = s.sbStart ∧ t.esbStart = s.esbStart ∧
    t.esbStep = s.esbStep ∧ t.host = s.host ∧ t.responses = s.responses ∧
    (i ≠ .clrin → t.ibuf = s.ibuf ∧ t.inLen = s.inLen)

/-- A command that fails writes no output buffer; a failed DECODE or ENCODE leaves OUT_NIBS 0 (R176, R210, R247). -/
def Obligations.FailureWritesNoOutput : Prop :=
  ∀ i s t, exec i s = .next t → t.resultCode ≠ .ok →
    SameOutput s t ∧ (i = .decode ∨ (∃ f, i = .encode f) → t.outNibs = 0)

/-! ### Control commands -/

/-- NOP (R230). -/
def Obligations.NopCompletes : Prop :=
  OnlyWord 0x00000000 .nop ∧ UnusedBitsIllegal 0x00 ∧ ∀ s, exec .nop s = .next (endedOk s)

/-- SRESET (R231): the reset state, CTRL.IE kept, CMD its word, DONE set; the model's own fields stay (log entry 10). -/
def Obligations.SresetResets : Prop :=
  OnlyWord 0x01000000 .sreset ∧ UnusedBitsIllegal 0x01 ∧ ∀ s, exec .sreset s = .next (afterSreset s)

/-- CLRIN (R232). -/
def Obligations.ClrinClearsInput : Prop :=
  OnlyWord 0x02000000 .clrin ∧ UnusedBitsIllegal 0x02 ∧ ∀ s, exec .clrin s = .next (endedOk { s with ibuf := 0, inLen := 0 })

/-! ### Unit commands -/

/-- SUBENC (R127). -/
def Obligations.SubencLooksUp : Prop :=
  UnusedBitsIllegal 0x30 ∧ ∀ v : BitVec 10, OnlyWord (BitVec.ofNat 32 (0x30000000 + v.toNat)) (.subenc v) ∧
    ∀ s, exec (.subenc v) s = .next (endedOk { s with res := BitVec.ofNat 32 (Config.chip.subEnc v).toNat })

/-- SUBDEC (R128). -/
def Obligations.SubdecLooksUp : Prop :=
  UnusedBitsIllegal 0x31 ∧ ∀ w : BitVec 11, OnlyWord (BitVec.ofNat 32 (0x31000000 + w.toNat)) (.subdec w) ∧
    ∀ s, exec (.subdec w) s = .next (endedOk { s with
      res := match Config.chip.subDec w with
        | none => 0x80000000
        | some e => BitVec.ofNat 32 e.toNat })

/-- After SUBENC v, SUBDEC of RES[10:0] returns v (R127's example, R125). -/
def Obligations.SubdecUndoesSubenc : Prop :=
  ∀ v s, ∃ t u, exec (.subenc v) s = .next t ∧ exec (.subdec (BitVec.ofNat 11 t.res.toNat)) t = .next u ∧
    u.res = BitVec.ofNat 32 v.toNat ∧ u = { s with
      res := BitVec.ofNat 32 v.toNat, resultCode := .ok, resultStage := .done, seq := .done, pend := none, busy := false,
      done := true }

/-- SCRSEED (R133): the seed, and that the map from SB to it is injective. -/
def Obligations.ScrseedSeeds : Prop :=
  UnusedBitsIllegal 0x32 ∧ (∀ (f : Fmt) (sb : BitVec 12),
    OnlyWord (BitVec.ofNat 32 (0x32000000 + (if f = .long then 0x00800000 else 0) + sb.toNat)) (.scrseed f sb) ∧
    ∀ s, exec (.scrseed f sb) s = .next (endedOk { s with
      scr := Config.chip.scrInit (BitVec.ofNat 32 ((Config.chip.scrMult f).toNat * sb.toNat)),
      res := BitVec.ofNat 32 ((Config.chip.scrMult f).toNat * sb.toNat) })) ∧
  ∀ (f : Fmt) (sb sb' : BitVec 12), BitVec.ofNat 32 ((Config.chip.scrMult f).toNat * sb.toNat) =
    BitVec.ofNat 32 ((Config.chip.scrMult f).toNat * sb'.toNat) → sb = sb'

/-- SCRSTEP (R134): RES is the output bit before the advance. -/
def Obligations.ScrstepAdvances : Prop :=
  UnusedBitsIllegal 0x33 ∧ ∀ b : Bool, OnlyWord (BitVec.ofNat 32 (0x33000000 + b.toNat)) (.scrstep b) ∧
    ∀ s, exec (.scrstep b) s = .next (endedOk { s with
      res := if s.scr.getLsbD 0 then 1 else 0, scr := Config.chip.scrAdv s.scr b })

/-- R122: PolyMod gives a remainder of smaller degree (deg(0) = −∞), and fails closed on a zero divisor. -/
def Obligations.PolyModIsARemainder : Prop :=
  (∀ a, polyMod a 0 = (0, true)) ∧
  ∀ a p, p ≠ 0 → (polyMod a p).2 = false ∧ ((polyMod a p).1 = 0 ∨ (polyMod a p).1.log2 < p.log2) ∧
    ∃ q, a = clmul q p ^^^ (polyMod a p).1

/-- There is only one remainder, so any grouping of the work gives PolyMod's (R122), and its corner cases follow (R124). -/
def Obligations.RemainderIsUnique : Prop :=
  ∀ a p q r, p ≠ 0 → (r = 0 ∨ r.log2 < p.log2) → a = clmul q p ^^^ r → polyMod a p = (r, false)

/-- The dividend of a telegram: TEL[0] is the coefficient of x^(N−1), TEL[N−1] that of x^0 (R123, R15). -/
def Obligations.TelegramIsItsPolynomial : Prop :=
  ∀ f tel k, (telPoly f tel).testBit k = (decide (k < f.N) && bitAt tel (f.N - 1 - k))

/-- POLYREM (R135), by divisor; SEL = 3 is ILLEGAL and no word decodes to it. -/
def Obligations.PolyremDivides : Prop :=
  UnusedBitsIllegal 0x34 ∧ ∀ (f : Fmt) (sel : BitVec 2) (s : State),
    if sel = 3 then
      (∀ w, decode w ≠ .ok (.polyrem f sel)) ∧ exec (.polyrem f sel) s = .next (endedBy .illegal .decode s)
    else
      OnlyWord (BitVec.ofNat 32 (0x34000000 + (if f = .long then 0x00800000 else 0) + sel.toNat * 0x00200000))
        (.polyrem f sel) ∧
      exec (.polyrem f sel) s = .next (
        if divisorOf Config.chip f sel = 0 then endedBy .divz .unit { s with rem := 0 }
        else endedOk { s with
          rem := BitVec.ofNat 96 (polyMod (telPoly f s.tel) (divisorOf Config.chip f sel)).1,
          res := if (polyMod (telPoly f s.tel) (divisorOf Config.chip f sel)).1 = 0 then 1 else 0 })

/-! ### Decoder commands -/

/-- DETECT (R161). -/
def Obligations.DetectChoosesFormat : Prop :=
  OnlyWord 0x11000000 .detect ∧ ∀ s : State, exec .detect s = .next (
    if s.inLen.toNat < 86 then endedBy .fmtErr .detectFormat { s with format := none }
    else if s.inLen.toNat ≤ 255 then endedOk { s with format := some .short }
    else endedOk { s with format := some .long })

/-- WINDOW (R162). -/
def Obligations.WindowTakesTail : Prop :=
  StepCommand 0x12000000 .window .slideWindow fun f s =>
    ∃ t, exec .window s = .next (endedOk { s with tel := t }) ∧
      ∀ j, bitAt t j = if j < f.N then bitAt s.ibuf (1024 - f.N + j) else false

/-- GCHECK (R164). -/
def Obligations.GcheckTestsDivisibility : Prop :=
  StepCommand 0x13000000 .gcheck .checkSyndrome fun f s =>
    exec .gcheck s = .next (
      if Config.chip.gPoly f = 0 then endedBy .divz .checkSyndrome { s with rem := 0 }
      else if (polyMod (telPoly f s.tel) (Config.chip.gPoly f)).1 = 0 then endedOk { s with rem := 0 }
      else endedBy .synErr .checkSyndrome
        { s with rem := BitVec.ofNat 96 (polyMod (telPoly f s.tel) (Config.chip.gPoly f)).1 })

/-- FSYND (R165): REM is not written, on DIVZ neither (log entry 18: the model's reading of R242's DIVZ row). -/
def Obligations.FsyndComputesSyndrome : Prop :=
  StepCommand 0x14000000 .fsynd .checkSyndrome fun f s =>
    if Config.chip.fPoly f = 0 then exec .fsynd s = .next (endedBy .divz .checkSyndrome s)
    else ∃ t, exec .fsynd s = .next (endedOk { s with synd := t }) ∧
      t.toNat = (polyMod (telPoly f s.tel) (Config.chip.fPoly f)).1

/-- SUBST (R167) with Realign (R166). -/
def Obligations.SubstRealigns : Prop :=
  StepCommand 0x15000000 .subst .substitute fun f s =>
    if f = .long ∧ s.synd = 0 then exec .subst s = .next (endedBy .subErr .substitute s)
    else
      match Config.chip.synIdx f s.synd with
      | none => exec .subst s = .next (endedBy .subErr .substitute s)
      | some e =>
        if f.N ≤ e then exec .subst s = .next (endedBy .subErr .substitute s)
        else ∃ t sh, exec .subst s = .next (endedOk { s with shift := sh, tel := t }) ∧ sh.toNat = e ∧
          ∀ j, bitAt t j = if j < f.N then bitAt s.tel ((j + e) % f.N) else false

/-- VALID (R168) with Contract (R126): the fields, the words, the count, and the one test of three conditions. -/
def Obligations.ValidExtractsAndTests : Prop :=
  StepCommand 0x16000000 .valid .validateControl fun f s =>
    ∃ (w : BitVec 830) (n : Nat) (t : State),
      (∀ j < f.K, word10 w j = (Config.chip.subDec (block fun i => bitAt s.tel (11 * j + i))).getD 0) ∧
      (∀ i, 10 * f.K ≤ i → bitAt w i = false) ∧
      n = (List.range f.K).countP (fun j => (Config.chip.subDec (block fun i => bitAt s.tel (11 * j + i))).isSome) ∧
      t = { s with
        ctrlbits := packBits 3 fun i => bitAt s.tel (if i = 2 then f.N - 110 else f.N - 109 + i),
        sb := packBits 12 fun i => bitAt s.tel (f.N - 107 + i), wbuf := w, dwcount := BitVec.ofNat 7 n } ∧
      ((n = f.K ∧ bitAt s.tel (f.N - 110) = false ∧ bitAt s.tel (f.N - 109) = false ∧ bitAt s.tel (f.N - 108) = true ∧
          exec .valid s = .next (endedOk t)) ∨
       (¬(n = f.K ∧ bitAt s.tel (f.N - 110) = false ∧ bitAt s.tel (f.N - 109) = false ∧ bitAt s.tel (f.N - 108) = true) ∧
          exec .valid s = .next (endedBy .ctrlErr .validateControl t)))

/-- INVERT (R170). -/
def Obligations.InvertComplements : Prop :=
  StepCommand 0x17000000 .invert .invert fun f s =>
    ∃ t, exec .invert s = .next (endedOk { s with tel := t, invused := true }) ∧
      ∀ j, bitAt t j = if j < f.N then !bitAt s.tel j else false

/-- DESCR (R172) with Scramble (R132): WBUF beyond the format's words is 0 (R59). -/
def Obligations.DescrDescrambles : Prop :=
  StepCommand 0x18000000 .descr .descramble fun f s =>
    ∃ w last, exec .descr s = .next (endedOk { s with wbuf := w, scr := last }) ∧
      ScrambledBy Config.chip f s.sb .dec s.wbuf w last

/-- FINAL (R174): the first word, the other words, the zero trailer, OUT_NIBS. -/
def Obligations.FinalUndoesChecksum : Prop :=
  StepCommand 0x19000000 .final .finalize fun f s =>
    ∃ u, exec .final s =
        .next (endedOk { s with ubuf := u, outNibs := match f with | .short => 53 | .long => 208 }) ∧
      ((word10 u 0).toNat + ((List.range (f.K - 1)).map fun j => (word10 s.wbuf (j + 1)).toNat).sum) % 1024 =
        (word10 s.wbuf 0).toNat ∧
      (∀ i, 10 ≤ i → i < f.M → bitAt u i = bitAt s.wbuf i) ∧ ∀ i, f.M ≤ i → bitAt u i = false

/-- DECODE is its step commands one after another, with one inversion retry after VALID (R160, R163, R169, R171; 95 PR4). -/
def Obligations.DecodeIsItsSteps : Prop :=
  OnlyWord 0x10000000 .decode ∧ ∀ s, exec .decode s = .next (decodeBySteps s)

/-! ### Encoder commands -/

/-- ESTART (R191). -/
def Obligations.EstartStartsSearch : Prop :=
  UnusedBitsIllegal 0x21 ∧ OnlyWord 0x21000000 (.estart .short) ∧ OnlyWord 0x21800000 (.estart .long) ∧
  ∀ f s, exec (.estart f) s = .next (endedOk { s with
    format := some f, sb := s.sbStart, esb := s.esbStart, attempts := 0, first := true, cond := 0, outNibs := 0 })

/-- ADVANCE (R193) with Inc (R192): it stops at the first pair whose header windows are codewords, counting every pair it
looked at, or raises EXHAUSTED after ATT_MAX. -/
def Obligations.AdvanceFindsNextPair : Prop :=
  StepCommand 0x22000000 .advance .advanceSbEsb fun _ s =>
    s.attempts.toNat ≤ 4194304 → ∃ k t,
      (∀ j < k, ¬HeaderOk Config.chip (lookedAt s j)) ∧
      t = { s with sb := BitVec.ofNat 12 (lookedAt s k).1, esb := BitVec.ofNat 10 (lookedAt s k).2, first := false } ∧
      ((s.attempts.toNat + k < 4194304 ∧ HeaderOk Config.chip (lookedAt s k) ∧
          exec .advance s = .next (endedOk { t with attempts := BitVec.ofNat 23 (s.attempts.toNat + k + 1), cond := 1 })) ∨
       (s.attempts.toNat + k = 4194304 ∧
          exec .advance s = .next (endedBy .exhausted .advanceSbEsb { t with attempts := 4194304, cond := 0 })))

/-- PREP (R194, R195) with Scramble (R132) and Expand (R126). -/
def Obligations.PrepShapesPayload : Prop :=
  StepCommand 0x23000000 .prep .prepare fun f s =>
    ∃ w0 w last p, exec .prep s = .next (endedOk { s with wbuf := w, scr := last, pbuf := p }) ∧
      (word10 w0 0).toNat = ((List.range f.K).map fun j => (word10 s.ubuf j).toNat).sum % 1024 ∧
      (∀ i, 10 ≤ i → i < f.M → bitAt w0 i = bitAt s.ubuf i) ∧
      ScrambledBy Config.chip f s.sb .enc w0 w last ∧
      (∀ j < f.K, slice p (11 * j) 11 = Config.chip.subEnc (word10 w j)) ∧ ∀ i, f.P ≤ i → bitAt p i = false

/-- ASSEMBLE (R197): the candidate with a zero check region, its remainder by fg, the check bits if they fit 85 bits, else
REJECT. -/
def Obligations.AssembleInsertsCheckBits : Prop :=
  StepCommand 0x24000000 .assemble .assemble fun f s =>
    ∃ (tel0 : BitVec 1023) (r : Nat),
      (∀ j, bitAt tel0 j = if j < f.P then bitAt s.pbuf j else if j < f.P + 25 then headerBit s.sb s.esb (j - f.P) else false) ∧
      r = (polyMod (telPoly f tel0) (Config.chip.fgPoly f)).1 ∧
      if Config.chip.fgPoly f ≠ 0 ∧ Config.chip.gPoly f ^^^ r < 2 ^ 85 then
        ∃ t, exec .assemble s = .next (endedOk { s with tel := t, rem := BitVec.ofNat 96 r, cond := s.cond ||| 0x02 }) ∧
          ∀ j, bitAt t j = if j < f.N - 85 then bitAt tel0 j
            else if j < f.N then (Config.chip.gPoly f ^^^ r).testBit (f.N - 1 - j) else false
      else
        exec .assemble s =
          .next (endedBy .reject .assemble { s with tel := tel0, rem := BitVec.ofNat 96 r, cond := s.cond &&& 0x3D })

/-- CALPHA (R200). -/
def Obligations.CalphaTestsAlphabet : Prop :=
  StepCommand 0x25000000 .calpha .alphabet fun f s =>
    (AllBlocksValid Config.chip f s.tel ∧ exec .calpha s = .next (endedOk { s with cond := s.cond ||| 0x04 })) ∨
    (¬AllBlocksValid Config.chip f s.tel ∧
      exec .calpha s = .next (endedBy .reject .alphabet { s with cond := s.cond &&& 0x3B }))

/-- CAPER (R202, R201, R199): SHORT always passes; LONG passes when every pair of windows differs in enough places. -/
def Obligations.CaperTestsAperiodicity : Prop :=
  StepCommand 0x26000000 .caper .aperiodicity fun f s =>
    ((f = .short ∨ Aperiodic f s.tel) ∧ exec .caper s = .next (endedOk { s with cond := s.cond ||| 0x08 })) ∨
    (¬(f = .short ∨ Aperiodic f s.tel) ∧
      exec .caper s = .next (endedBy .reject .aperiodicity { s with cond := s.cond &&& 0x37 }))

/-- COFFS (R204, R203, R205): at each of eleven offsets into the doubled telegram no run of codewords is longer than its
maximum. -/
def Obligations.CoffsTestsOffSynch : Prop :=
  StepCommand 0x27000000 .coffs .offSynch fun f s =>
    (OffSynchSafe Config.chip f s.tel ∧ exec .coffs s = .next (endedOk { s with cond := s.cond ||| 0x10 })) ∨
    (¬OffSynchSafe Config.chip f s.tel ∧
      exec .coffs s = .next (endedBy .reject .offSynch { s with cond := s.cond &&& 0x2F }))

/-- CUNDER (R207, R206, R205): no undersampled sequence has a run of more than 30 codewords. -/
def Obligations.CunderTestsUndersampling : Prop :=
  StepCommand 0x28000000 .cunder .undersampling fun f s =>
    (UndersamplingSafe Config.chip f s.tel ∧ exec .cunder s = .next (endedOk { s with cond := s.cond ||| 0x20 })) ∨
    (¬UndersamplingSafe Config.chip f s.tel ∧
      exec .cunder s = .next (endedBy .reject .undersampling { s with cond := s.cond &&& 0x1F }))

/-- CUNDER never rejects a SHORT telegram (R207's corner case, 95 V-C14). -/
def Obligations.CunderNeverRejectsShort : Prop :=
  ∀ s : State, s.format = some .short → exec .cunder s = .next (endedOk { s with cond := s.cond ||| 0x20 })

/-- EMIT (R208). -/
def Obligations.EmitPadsTelegram : Prop :=
  StepCommand 0x29000000 .emit .emit fun f s =>
    ∃ t, exec .emit s = .next (endedOk { s with tbuf := t, outNibs := match f with | .short => 86 | .long => 256 }) ∧
      ∀ j, bitAt t j = if j < f.N then bitAt s.tel j else false

/-- ENCODE is ESTART and then its step commands one after another, going on with the next pair after a REJECT, at most
ATT_MAX + 1 times (R190, R210, R243, R286). -/
def Obligations.EncodeIsItsSteps : Prop :=
  OnlyWord 0x20000000 (.encode .short) ∧ OnlyWord 0x20800000 (.encode .long) ∧
  ∀ f s, exec (.encode f) s = .next (searchBySteps (4194304 + 1) (runSteps [.estart f] s))

/-- How an ENCODE ends (R190, R210, R241-R243): with an emitted telegram that carries the accepted pair and passed all six checks,
or EXHAUSTED with no output; never with REJECT. The payload stays. -/
def Obligations.EncodeEndsEmittedOrExhausted : Prop :=
  ∀ f s, ∃ t, exec (.encode f) s = .next t ∧ t.ubuf = s.ubuf ∧ t.format = some f ∧ t.attempts.toNat ≤ 4194304 ∧
    ((t.resultCode = .ok ∧ t.cond = 0x3F ∧ 1 ≤ t.attempts.toNat ∧ t.outNibs.toNat = f.TN ∧
        (∀ j, bitAt t.tbuf j = if j < f.N then bitAt t.tel j else false) ∧
        (∀ j < 25, bitAt t.tel (f.N - 110 + j) = headerBit t.sb t.esb j) ∧ AllBlocksValid Config.chip f t.tel) ∨
     (t.resultCode = .exhausted ∧ t.resultStage = .advanceSbEsb ∧ t.attempts.toNat = 4194304 ∧ t.cond = 0 ∧
        t.outNibs = 0 ∧ t.tbuf = s.tbuf))

/-- PREP, then DESCR, then FINAL gives the payload back, in every format and configuration, with a zero trailer (R132, R195, 95
S1). -/
def Obligations.PrepDescrFinalRoundTrip : Prop :=
  ∀ s f, s.format = some f → ∃ t u v, exec .prep s = .next t ∧ exec .descr t = .next u ∧ exec .final u = .next v ∧
    v.resultCode = .ok ∧ (∀ i < f.M, bitAt v.ubuf i = bitAt s.ubuf i) ∧ ∀ i, f.M ≤ i → bitAt v.ubuf i = false

/-- R196, an inference the spec marks as its own (from R197 and R122), for every well-formed configuration with deg f ≥ 1 and g ≠ 0: ASSEMBLE accepts, its telegram has remainder g by fg,
it passes GCHECK, and its syndrome is g mod f. -/
def Obligations.AssembledTelegramPassesGcheck : Prop :=
  ∀ (c : Config) (f : Fmt) (s : State), c.WellFormed → 2 ≤ c.fPoly f → c.gPoly f ≠ 0 →
    (c.gPoly f).log2 < (c.fgPoly f).log2 ∧ ∃ t u v, assembleBody c f s = .ok t ∧
      polyMod (telPoly f t.tel) (c.fgPoly f) = (c.gPoly f, false) ∧
      gcheckBody c f t = .ok u ∧ u.rem = 0 ∧
      fsyndBody c f t = .ok v ∧ v.synd.toNat = (polyMod (c.gPoly f) (c.fPoly f)).1

/-- S1, for every well-formed configuration in which deg f ≥ 1, g ≠ 0, and the syndrome index sends g mod f to shift 0 (the
r = 0 case of R11): the encoder builds a telegram for every payload and SB, and DECODE of it, right-aligned, gives the payload
back. -/
def Obligations.BuiltTelegramDecodes : Prop :=
  ∀ (c : Config) (f : Fmt) (s : State), c.WellFormed → 2 ≤ c.fPoly f → c.gPoly f ≠ 0 →
    (f = .long → (polyMod (c.gPoly f) (c.fPoly f)).1 ≠ 0) →
    c.synIdx f (BitVec.ofNat 16 (polyMod (c.gPoly f) (c.fPoly f)).1) = some 0 →
    ∃ t, Builds c f s t ∧ ∀ d : State, SelectsFormat f d.inLen →
      (∀ j < f.N, bitAt d.ibuf (1024 - f.N + j) = bitAt t.tel j) →
      ∃ v, decodeBody c d = .ok v ∧ DecodedAs f s t v 0 false

/-- R166, R167 under the cyclic properties of R11: a telegram read from r bits further on decodes all the same, realigned by
(N − r) mod N. -/
def Obligations.RotatedTelegramDecodes : Prop :=
  ∀ (c : Config) (f : Fmt) (s : State) (r : Nat), c.WellFormed → 2 ≤ c.fPoly f → c.gPoly f ≠ 0 → r < f.N →
    (∃ q, clmul q (c.gPoly f) = 2 ^ f.N ^^^ 1) → (∃ q, clmul q (c.fPoly f) = 2 ^ f.N ^^^ 1) →
    (f = .long → (polyMod (c.gPoly f <<< r) (c.fPoly f)).1 ≠ 0) →
    c.synIdx f (BitVec.ofNat 16 (polyMod (c.gPoly f <<< r) (c.fPoly f)).1) = some ((f.N - r) % f.N) →
    ∃ t, Builds c f s t ∧ ∀ d : State, SelectsFormat f d.inLen →
      (∀ j < f.N, bitAt d.ibuf (1024 - f.N + j) = bitAt t.tel ((j + r) % f.N)) →
      ∃ v, decodeBody c d = .ok v ∧ DecodedAs f s t v ((f.N - r) % f.N) false

/-- S5 (R160, R171), where f and g divide the word of N ones: the complement of a telegram decodes to the same payload, after
one inversion. -/
def Obligations.InvertedTelegramDecodes : Prop :=
  ∀ (c : Config) (f : Fmt) (s : State), c.WellFormed → 2 ≤ c.fPoly f → c.gPoly f ≠ 0 →
    (∃ q, clmul q (c.gPoly f) = 2 ^ f.N - 1) → (∃ q, clmul q (c.fPoly f) = 2 ^ f.N - 1) →
    (f = .long → (polyMod (c.gPoly f) (c.fPoly f)).1 ≠ 0) →
    c.synIdx f (BitVec.ofNat 16 (polyMod (c.gPoly f) (c.fPoly f)).1) = some 0 →
    ∃ t, Builds c f s t ∧ ∀ d : State, SelectsFormat f d.inLen →
      (∀ j < f.N, bitAt d.ibuf (1024 - f.N + j) = !bitAt t.tel j) →
      ∃ v, decodeBody c d = .ok v ∧ DecodedAs f s t v 0 true

/-! ### The port -/

/-- After reset every register and buffer word reads as the reset table says: ID its constant, ESB_STEP 1, all else 0 (R271,
R35). -/
def Obligations.ResetReadsAsTable : Prop :=
  ∀ off, readLocation (locate off) State.reset = if off = 0x000 then 0x45424331 else if off = 0x030 then 1 else 0

/-- R75: how the words of the buffers hold their bits, read and written, and that a buffer write changes no other location. -/
def Obligations.BufferWordsHoldStringBits : Prop :=
  (∀ b s w k, w < PortBuf.words b → k < 32 → (readLocation (locate (b.offset + 4 * w)) s).getLsbD (31 - k) =
    (decide (32 * w + k < bufLength b) && bufBit b s (32 * w + k))) ∧
  ∀ (s : State) b w v, s.busy = false → b ∈ [PortBuf.ubuf, .tel, .wbuf, .pbuf] → w < PortBuf.words b →
    (∀ i < bufLength b, bufBit b (memWrite (b.offset + 4 * w) v s) i =
      if i / 32 = w then v.getLsbD (31 - i % 32) else bufBit b s i) ∧
    ∀ off, off % 4 = 0 → off ≠ b.offset + 4 * w →
      readLocation (locate off) (memWrite (b.offset + 4 * w) v s) = readLocation (locate off) s

/-- R76 (with R41): a push keeps the last 1024 bits and counts the digits, saturating; IN_WORD pushes its eight digits in
order. -/
def Obligations.PushesKeepInputTail : Prop :=
  ∀ (s : State) v, s.busy = false →
    (∃ x, memWrite 0x020 v s = { s with ibuf := x, inLen := BitVec.ofNat 16 (min (s.inLen.toNat + 1) 65535) } ∧
      ∀ i < 1024, bitAt x i = if i < 1020 then bitAt s.ibuf (i + 4) else v.getLsbD (1023 - i)) ∧
    (∃ x, memWrite 0x024 v s = { s with ibuf := x, inLen := BitVec.ofNat 16 (min (s.inLen.toNat + 8) 65535) } ∧
      ∀ i < 1024, bitAt x i = if i < 992 then bitAt s.ibuf (i + 32) else v.getLsbD (1023 - i))

/-- R80: a write to CMD is accepted, aborts, or is dropped. The command's latency is the model's free value (log entry 4). -/
def Obligations.CmdWriteHasThreeEffects : Prop :=
  ∀ (s : State) w,
    (s.busy = false → ∃ l, memWrite 0x00C w s = { s with
      cmd := w, pend := some w, busy := true, done := false, latency := l, accepted := s.accepted + 1 }) ∧
    (s.busy = true → w = 0x01000000 → memWrite 0x00C w s = afterSreset s) ∧
    (s.busy = true → w ≠ 0x01000000 → memWrite 0x00C w s = { s with werr := true })

/-- R280: what a write does while BUSY = 1. -/
def Obligations.BusyWritesFollowProtocol : Prop :=
  ∀ (s : State) off v, s.busy = true → off % 4 = 0 → off < 0x1000 →
    (off = 0x004 → memWrite off v s = { s with ie := v.getLsbD 0 }) ∧
    (off = 0x008 → memWrite off v s =
      { s with done := s.done && !v.getLsbD 1, werr := s.werr && !v.getLsbD 3 }) ∧
    (off = 0x00C → memWrite off v s = if v = 0x01000000 then afterSreset s else { s with werr := true }) ∧
    (GuardedOffset off → memWrite off v s = { s with werr := true }) ∧
    (off ≠ 0x004 → off ≠ 0x008 → off ≠ 0x00C → ¬GuardedOffset off → memWrite off v s = s)

/-- R282: while BUSY = 1 a read of ID, CTRL, STATUS or CMD answers its value, and no read changes any state of the block. -/
def Obligations.BusyReadsAnswerFourRegisters : Prop :=
  ∀ s : State, s.busy = true →
    memRead 0x000 s = { s with responses := 0x45424331 :: s.responses } ∧
    memRead 0x004 s = { s with responses := (if s.ie then 1 else 0) :: s.responses } ∧
    memRead 0x008 s = { s with responses := statusWord s :: s.responses } ∧
    memRead 0x00C s = { s with responses := s.cmd :: s.responses } ∧
    ∀ off, ∃ a n, memRead off s = { s with responses := a :: s.responses, busyReads := n }

/-- STATUS, RESULT, SEQ and FORMAT as the port shows them, bit by bit and by number (R37, R39, R33, R40), with the codes of the
states (R34) and of the results (R241) written out, and what a write stores to FORMAT. -/
def Obligations.StatusAndResultImages : Prop :=
  (∀ (s : State) (k : Nat),
    (statusWord s).getLsbD k =
      (if k = 0 then s.busy else if k = 1 then s.done else if k = 2 then decide (s.resultCode ≠ .ok)
        else if k = 3 then s.werr else if k = 4 then s.invused else false)) ∧
  (∀ s : State, (resultWord s).toNat = stateNumber s.resultStage * 256 + resultNumber s.resultCode) ∧
  (∀ s : State, (readLocation (locate 0x014) s).toNat = stateNumber s.seq) ∧
  (∀ s : State, (readLocation (locate 0x018) s).toNat = formatNumber s.format) ∧
  ∀ (s : State) v, s.busy = false → formatNumber (memWrite 0x018 v s).format = if v.toNat % 4 = 3 then 0 else v.toNat % 4

/-- What the port does while BUSY = 0, apart from the buffers, the pushes and CMD, which have statements of their own. Reads: every
read answers its location's value (R71) and changes nothing else; what each register reads as (R32, R35-R53), and that an unmapped
word reads 0 (R74). Writes: CTRL (R36), STATUS by ones (R37), FORMAT with 3 as NONE (R40), the start registers (R42); a write of
any other location is ignored, busy or not (R72, R74, R280). -/
def Obligations.IdlePortReadsAndWrites : Prop :=
  (∀ (s : State) off, s.busy = false →
    memRead off s = { s with responses := readLocation (locate off) s :: s.responses }) ∧
  (∀ s : State, RegistersRead s ∧ ∀ off, UnmappedOffset off → readLocation (locate off) s = 0) ∧
  (∀ (s : State) v, s.busy = false →
    memWrite 0x004 v s = { s with ie := v.getLsbD 0 } ∧
    memWrite 0x008 v s = { s with done := s.done && !v.getLsbD 1, werr := s.werr && !v.getLsbD 3 } ∧
    memWrite 0x018 v s = { s with
      format := if v.toNat % 4 = 1 then some .short else if v.toNat % 4 = 2 then some .long else none } ∧
    memWrite 0x028 v s = { s with sbStart := BitVec.ofNat 12 v.toNat } ∧
    memWrite 0x02C v s = { s with esbStart := BitVec.ofNat 10 v.toNat } ∧
    memWrite 0x030 v s = { s with esbStep := BitVec.ofNat 10 v.toNat }) ∧
  ∀ (s : State) off v, ReadOnlyOffset off ∨ UnmappedOffset off → memWrite off v s = s
end

