-- ==== Sys2Proof/Laws/Bits.lean ====
section
/-! SUPPORT. The bit strings of Machine/Bits.lean, bit by bit: what reading one bit of each operation gives. -/

namespace Sys2Proof.Machine

theorem bitAt_eq_getLsbD {n : Nat} (s : BitVec n) (i : Nat) : bitAt s i = (decide (i < n) && s.getLsbD (n - 1 - i)) := rfl

theorem bitAt_of_le {n : Nat} (s : BitVec n) {i : Nat} (h : n ≤ i) : bitAt s i = false := by
  simp [bitAt_eq_getLsbD, Nat.not_lt.mpr h]

/-- Two strings of one length that agree at every index are equal. -/
theorem eq_of_bitAt {n : Nat} {x y : BitVec n} (h : ∀ i < n, bitAt x i = bitAt y i) : x = y :=
  BitVec.eq_of_getMsbD_eq fun i hi => h i hi

@[simp] theorem bitAt_zero {n : Nat} (i : Nat) : bitAt (0 : BitVec n) i = false := by simp [bitAt_eq_getLsbD]

theorem bitAt_not {n : Nat} (s : BitVec n) {i : Nat} (h : i < n) : bitAt (~~~s) i = !bitAt s i := by
  have h1 : n - 1 - i < n := by omega
  simp [bitAt_eq_getLsbD, h, h1]

theorem bitAt_slice {n : Nat} (s : BitVec n) {a len i : Nat} (hi : i < len) (hn : a + len ≤ n) :
    bitAt (slice s a len) i = bitAt s (a + i) := by
  have h1 : a + i < n := by omega
  have h2 : len - 1 - i < len := by omega
  have h3 : n - (a + len) + (len - 1 - i) = n - 1 - (a + i) := by omega
  simp [bitAt_eq_getLsbD, slice, hi, h1, h2, h3]

theorem bitAt_padTo {n : Nat} {w : Nat} (x : BitVec n) (h : n ≤ w) (i : Nat) : bitAt (padTo w x) i = bitAt x i := by
  by_cases hi : i < n
  · have h1 : i < w := by omega
    have h2 : w - 1 - i < w := by omega
    have h3 : ¬w - 1 - i < w - n := by omega
    have h4 : w - 1 - i - (w - n) = n - 1 - i := by omega
    simp [bitAt_eq_getLsbD, padTo, hi, h1, h2, h3, h4]
  · rw [bitAt_of_le x (by omega)]
    by_cases hw : i < w
    · have h2 : w - 1 - i < w := by omega
      have h3 : w - 1 - i < w - n := by omega
      simp [bitAt_eq_getLsbD, padTo, h3]
    · exact bitAt_of_le _ (by omega)

theorem bitAt_place {n m : Nat} (buf : BitVec n) {a : Nat} (x : BitVec m) (h : a + m ≤ n) (i : Nat) :
    bitAt (place buf a x) i = if a ≤ i ∧ i < a + m then bitAt x (i - a) else bitAt buf i := by
  by_cases hn : i < n
  · have h1 : n - 1 - i < n := by omega
    by_cases hlo : n - 1 - i < n - (a + m)
    · have : ¬(a ≤ i ∧ i < a + m) := by omega
      simp [bitAt_eq_getLsbD, place, hn, h1, hlo, this]
    · by_cases ha : a ≤ i
      · have h2 : a ≤ i ∧ i < a + m := by omega
        have h3 : i - a < m := by omega
        have h4 : n - 1 - i - (n - (a + m)) = m - 1 - (i - a) := by omega
        have h6 : m - 1 - (i - a) < m := by omega
        simp [bitAt_eq_getLsbD, place, hn, h1, hlo, h2, h3, h4, h6]
      · have h2 : ¬(a ≤ i ∧ i < a + m) := by omega
        have h3 : ¬n - 1 - i - (n - (a + m)) < m := by omega
        have h4 : x.getLsbD (n - 1 - i - (n - (a + m))) = false := BitVec.getLsbD_of_ge _ _ (by omega)
        simp [bitAt_eq_getLsbD, place, hn, h1, hlo, h2, h3, h4]
  · rw [bitAt_of_le _ (by omega), bitAt_of_le buf (by omega), if_neg (by omega)]

/-- Reading back what was placed. -/
theorem slice_place_same {n m : Nat} (buf : BitVec n) {a : Nat} (x : BitVec m) (h : a + m ≤ n) :
    slice (place buf a x) a m = x := by
  refine eq_of_bitAt fun i hi => ?_
  rw [bitAt_slice _ hi h, bitAt_place _ _ h, if_pos (by omega), Nat.add_sub_cancel_left]

/-- Reading beside what was placed. -/
theorem slice_place_disjoint {n m : Nat} (buf : BitVec n) {a b len : Nat} (x : BitVec m) (h : a + m ≤ n)
    (hb : b + len ≤ n) (hd : b + len ≤ a ∨ a + m ≤ b) : slice (place buf a x) b len = slice buf b len := by
  refine eq_of_bitAt fun i hi => ?_
  rw [bitAt_slice _ hi hb, bitAt_slice _ hi hb, bitAt_place _ _ h, if_neg (by omega)]

/-- The number packBits folds up, bit by bit. -/
theorem testBit_packFold (g : Nat → Bool) (n k : Nat) :
    ((List.range n).foldl (fun acc i => 2 * acc + (g i).toNat) 0).testBit k = (decide (k < n) && g (n - 1 - k)) := by
  induction n generalizing k with
  | zero => simp
  | succ n ih =>
    rw [List.range_succ, List.foldl_append, List.foldl_cons, List.foldl_nil]
    cases k with
    | zero => cases h : g n <;> simp [h, Nat.testBit_zero]
    | succ k =>
      have h2 : ∀ a : Nat, (2 * a + (g n).toNat) / 2 = a := by intro a; cases g n <;> (simp; try omega)
      rw [Nat.testBit_succ, h2, ih]
      have h3 : n - 1 - k = n + 1 - 1 - (k + 1) := by omega
      simp [h3]

theorem bitAt_packBits {n i : Nat} (g : Nat → Bool) (h : i < n) : bitAt (packBits n g) i = g i := by
  have h1 : n - 1 - i < n := by omega
  have h2 : n - 1 - (n - 1 - i) = i := by omega
  rw [bitAt_eq_getLsbD, packBits, BitVec.getLsbD_ofNat, testBit_packFold, h2]
  simp [h, h1]

theorem bitAt_append {m n : Nat} (x : BitVec m) (y : BitVec n) (i : Nat) :
    bitAt (x ++ y) i = if i < m then bitAt x i else bitAt y (i - m) := by
  rw [bitAt, BitVec.getMsbD_append]
  by_cases h : m ≤ i
  · simp [h, bitAt, Nat.not_lt.mpr h]
  · simp [h, bitAt, Nat.not_le.mp h]

/-- rotl (R12), bit by bit. -/
theorem bitAt_rotateLeft {n : Nat} (s : BitVec n) (r : Nat) {i : Nat} (h : i < n) :
    bitAt (s.rotateLeft r) i = bitAt s ((i + r) % n) := by
  rw [bitAt, BitVec.getMsbD_rotateLeft]
  simp [bitAt, h, Nat.add_comm]

end Sys2Proof.Machine
end

