-- ==== Sys2Proof/Laws/State.lean ====
section
/-! SUPPORT. The named updates of State, field by field: every equation holds by rfl. -/

namespace Sys2Proof.Machine

@[simp] theorem complete_ie (s : State) : (complete s).ie = s.ie := rfl
@[simp] theorem complete_busy (s : State) : (complete s).busy = false := rfl
@[simp] theorem complete_done (s : State) : (complete s).done = true := rfl
@[simp] theorem complete_werr (s : State) : (complete s).werr = s.werr := rfl
@[simp] theorem complete_invused (s : State) : (complete s).invused = s.invused := rfl
@[simp] theorem complete_cmd (s : State) : (complete s).cmd = s.cmd := rfl
@[simp] theorem complete_resultCode (s : State) : (complete s).resultCode = .ok := rfl
@[simp] theorem complete_resultStage (s : State) : (complete s).resultStage = .done := rfl
@[simp] theorem complete_seq (s : State) : (complete s).seq = .done := rfl
@[simp] theorem complete_format (s : State) : (complete s).format = s.format := rfl
@[simp] theorem complete_inLen (s : State) : (complete s).inLen = s.inLen := rfl
@[simp] theorem complete_sbStart (s : State) : (complete s).sbStart = s.sbStart := rfl
@[simp] theorem complete_esbStart (s : State) : (complete s).esbStart = s.esbStart := rfl
@[simp] theorem complete_esbStep (s : State) : (complete s).esbStep = s.esbStep := rfl
@[simp] theorem complete_sb (s : State) : (complete s).sb = s.sb := rfl
@[simp] theorem complete_esb (s : State) : (complete s).esb = s.esb := rfl
@[simp] theorem complete_attempts (s : State) : (complete s).attempts = s.attempts := rfl
@[simp] theorem complete_cond (s : State) : (complete s).cond = s.cond := rfl
@[simp] theorem complete_synd (s : State) : (complete s).synd = s.synd := rfl
@[simp] theorem complete_shift (s : State) : (complete s).shift = s.shift := rfl
@[simp] theorem complete_ctrlbits (s : State) : (complete s).ctrlbits = s.ctrlbits := rfl
@[simp] theorem complete_dwcount (s : State) : (complete s).dwcount = s.dwcount := rfl
@[simp] theorem complete_outNibs (s : State) : (complete s).outNibs = s.outNibs := rfl
@[simp] theorem complete_res (s : State) : (complete s).res = s.res := rfl
@[simp] theorem complete_scr (s : State) : (complete s).scr = s.scr := rfl
@[simp] theorem complete_rem (s : State) : (complete s).rem = s.rem := rfl
@[simp] theorem complete_ubuf (s : State) : (complete s).ubuf = s.ubuf := rfl
@[simp] theorem complete_tbuf (s : State) : (complete s).tbuf = s.tbuf := rfl
@[simp] theorem complete_tel (s : State) : (complete s).tel = s.tel := rfl
@[simp] theorem complete_ibuf (s : State) : (complete s).ibuf = s.ibuf := rfl
@[simp] theorem complete_wbuf (s : State) : (complete s).wbuf = s.wbuf := rfl
@[simp] theorem complete_pbuf (s : State) : (complete s).pbuf = s.pbuf := rfl
@[simp] theorem complete_first (s : State) : (complete s).first = s.first := rfl
@[simp] theorem complete_pend (s : State) : (complete s).pend = none := rfl
@[simp] theorem complete_host (s : State) : (complete s).host = s.host := rfl
@[simp] theorem complete_responses (s : State) : (complete s).responses = s.responses := rfl
@[simp] theorem complete_latency (s : State) : (complete s).latency = s.latency := rfl
@[simp] theorem complete_accepted (s : State) : (complete s).accepted = s.accepted := rfl
@[simp] theorem complete_busyReads (s : State) : (complete s).busyReads = s.busyReads := rfl

@[simp] theorem raise_ie (c : ResultCode) (g : SeqState) (s : State) : (raise c g s).ie = s.ie := rfl
@[simp] theorem raise_busy (c : ResultCode) (g : SeqState) (s : State) : (raise c g s).busy = false := rfl
@[simp] theorem raise_done (c : ResultCode) (g : SeqState) (s : State) : (raise c g s).done = true := rfl
@[simp] theorem raise_werr (c : ResultCode) (g : SeqState) (s : State) : (raise c g s).werr = s.werr := rfl
@[simp] theorem raise_invused (c : ResultCode) (g : SeqState) (s : State) : (raise c g s).invused = s.invused := rfl
@[simp] theorem raise_cmd (c : ResultCode) (g : SeqState) (s : State) : (raise c g s).cmd = s.cmd := rfl
@[simp] theorem raise_resultCode (c : ResultCode) (g : SeqState) (s : State) : (raise c g s).resultCode = c := rfl
@[simp] theorem raise_resultStage (c : ResultCode) (g : SeqState) (s : State) : (raise c g s).resultStage = g := rfl
@[simp] theorem raise_seq (c : ResultCode) (g : SeqState) (s : State) : (raise c g s).seq = .failed := rfl
@[simp] theorem raise_format (c : ResultCode) (g : SeqState) (s : State) : (raise c g s).format = s.format := rfl
@[simp] theorem raise_inLen (c : ResultCode) (g : SeqState) (s : State) : (raise c g s).inLen = s.inLen := rfl
@[simp] theorem raise_sbStart (c : ResultCode) (g : SeqState) (s : State) : (raise c g s).sbStart = s.sbStart := rfl
@[simp] theorem raise_esbStart (c : ResultCode) (g : SeqState) (s : State) : (raise c g s).esbStart = s.esbStart := rfl
@[simp] theorem raise_esbStep (c : ResultCode) (g : SeqState) (s : State) : (raise c g s).esbStep = s.esbStep := rfl
@[simp] theorem raise_sb (c : ResultCode) (g : SeqState) (s : State) : (raise c g s).sb = s.sb := rfl
@[simp] theorem raise_esb (c : ResultCode) (g : SeqState) (s : State) : (raise c g s).esb = s.esb := rfl
@[simp] theorem raise_attempts (c : ResultCode) (g : SeqState) (s : State) : (raise c g s).attempts = s.attempts := rfl
@[simp] theorem raise_cond (c : ResultCode) (g : SeqState) (s : State) : (raise c g s).cond = s.cond := rfl
@[simp] theorem raise_synd (c : ResultCode) (g : SeqState) (s : State) : (raise c g s).synd = s.synd := rfl
@[simp] theorem raise_shift (c : ResultCode) (g : SeqState) (s : State) : (raise c g s).shift = s.shift := rfl
@[simp] theorem raise_ctrlbits (c : ResultCode) (g : SeqState) (s : State) : (raise c g s).ctrlbits = s.ctrlbits := rfl
@[simp] theorem raise_dwcount (c : ResultCode) (g : SeqState) (s : State) : (raise c g s).dwcount = s.dwcount := rfl
@[simp] theorem raise_outNibs (c : ResultCode) (g : SeqState) (s : State) : (raise c g s).outNibs = s.outNibs := rfl
@[simp] theorem raise_res (c : ResultCode) (g : SeqState) (s : State) : (raise c g s).res = s.res := rfl
@[simp] theorem raise_scr (c : ResultCode) (g : SeqState) (s : State) : (raise c g s).scr = s.scr := rfl
@[simp] theorem raise_rem (c : ResultCode) (g : SeqState) (s : State) : (raise c g s).rem = s.rem := rfl
@[simp] theorem raise_ubuf (c : ResultCode) (g : SeqState) (s : State) : (raise c g s).ubuf = s.ubuf := rfl
@[simp] theorem raise_tbuf (c : ResultCode) (g : SeqState) (s : State) : (raise c g s).tbuf = s.tbuf := rfl
@[simp] theorem raise_tel (c : ResultCode) (g : SeqState) (s : State) : (raise c g s).tel = s.tel := rfl
@[simp] theorem raise_ibuf (c : ResultCode) (g : SeqState) (s : State) : (raise c g s).ibuf = s.ibuf := rfl
@[simp] theorem raise_wbuf (c : ResultCode) (g : SeqState) (s : State) : (raise c g s).wbuf = s.wbuf := rfl
@[simp] theorem raise_pbuf (c : ResultCode) (g : SeqState) (s : State) : (raise c g s).pbuf = s.pbuf := rfl
@[simp] theorem raise_first (c : ResultCode) (g : SeqState) (s : State) : (raise c g s).first = s.first := rfl
@[simp] theorem raise_pend (c : ResultCode) (g : SeqState) (s : State) : (raise c g s).pend = none := rfl
@[simp] theorem raise_host (c : ResultCode) (g : SeqState) (s : State) : (raise c g s).host = s.host := rfl
@[simp] theorem raise_responses (c : ResultCode) (g : SeqState) (s : State) : (raise c g s).responses = s.responses := rfl
@[simp] theorem raise_latency (c : ResultCode) (g : SeqState) (s : State) : (raise c g s).latency = s.latency := rfl
@[simp] theorem raise_accepted (c : ResultCode) (g : SeqState) (s : State) : (raise c g s).accepted = s.accepted := rfl
@[simp] theorem raise_busyReads (c : ResultCode) (g : SeqState) (s : State) : (raise c g s).busyReads = s.busyReads := rfl

@[simp] theorem enter_ie (g : SeqState) (s : State) : (enter g s).ie = s.ie := rfl
@[simp] theorem enter_busy (g : SeqState) (s : State) : (enter g s).busy = s.busy := rfl
@[simp] theorem enter_done (g : SeqState) (s : State) : (enter g s).done = s.done := rfl
@[simp] theorem enter_werr (g : SeqState) (s : State) : (enter g s).werr = s.werr := rfl
@[simp] theorem enter_invused (g : SeqState) (s : State) : (enter g s).invused = s.invused := rfl
@[simp] theorem enter_cmd (g : SeqState) (s : State) : (enter g s).cmd = s.cmd := rfl
@[simp] theorem enter_resultCode (g : SeqState) (s : State) : (enter g s).resultCode = s.resultCode := rfl
@[simp] theorem enter_resultStage (g : SeqState) (s : State) : (enter g s).resultStage = s.resultStage := rfl
@[simp] theorem enter_seq (g : SeqState) (s : State) : (enter g s).seq = g := rfl
@[simp] theorem enter_format (g : SeqState) (s : State) : (enter g s).format = s.format := rfl
@[simp] theorem enter_inLen (g : SeqState) (s : State) : (enter g s).inLen = s.inLen := rfl
@[simp] theorem enter_sbStart (g : SeqState) (s : State) : (enter g s).sbStart = s.sbStart := rfl
@[simp] theorem enter_esbStart (g : SeqState) (s : State) : (enter g s).esbStart = s.esbStart := rfl
@[simp] theorem enter_esbStep (g : SeqState) (s : State) : (enter g s).esbStep = s.esbStep := rfl
@[simp] theorem enter_sb (g : SeqState) (s : State) : (enter g s).sb = s.sb := rfl
@[simp] theorem enter_esb (g : SeqState) (s : State) : (enter g s).esb = s.esb := rfl
@[simp] theorem enter_attempts (g : SeqState) (s : State) : (enter g s).attempts = s.attempts := rfl
@[simp] theorem enter_cond (g : SeqState) (s : State) : (enter g s).cond = s.cond := rfl
@[simp] theorem enter_synd (g : SeqState) (s : State) : (enter g s).synd = s.synd := rfl
@[simp] theorem enter_shift (g : SeqState) (s : State) : (enter g s).shift = s.shift := rfl
@[simp] theorem enter_ctrlbits (g : SeqState) (s : State) : (enter g s).ctrlbits = s.ctrlbits := rfl
@[simp] theorem enter_dwcount (g : SeqState) (s : State) : (enter g s).dwcount = s.dwcount := rfl
@[simp] theorem enter_outNibs (g : SeqState) (s : State) : (enter g s).outNibs = s.outNibs := rfl
@[simp] theorem enter_res (g : SeqState) (s : State) : (enter g s).res = s.res := rfl
@[simp] theorem enter_scr (g : SeqState) (s : State) : (enter g s).scr = s.scr := rfl
@[simp] theorem enter_rem (g : SeqState) (s : State) : (enter g s).rem = s.rem := rfl
@[simp] theorem enter_ubuf (g : SeqState) (s : State) : (enter g s).ubuf = s.ubuf := rfl
@[simp] theorem enter_tbuf (g : SeqState) (s : State) : (enter g s).tbuf = s.tbuf := rfl
@[simp] theorem enter_tel (g : SeqState) (s : State) : (enter g s).tel = s.tel := rfl
@[simp] theorem enter_ibuf (g : SeqState) (s : State) : (enter g s).ibuf = s.ibuf := rfl
@[simp] theorem enter_wbuf (g : SeqState) (s : State) : (enter g s).wbuf = s.wbuf := rfl
@[simp] theorem enter_pbuf (g : SeqState) (s : State) : (enter g s).pbuf = s.pbuf := rfl
@[simp] theorem enter_first (g : SeqState) (s : State) : (enter g s).first = s.first := rfl
@[simp] theorem enter_pend (g : SeqState) (s : State) : (enter g s).pend = s.pend := rfl
@[simp] theorem enter_host (g : SeqState) (s : State) : (enter g s).host = s.host := rfl
@[simp] theorem enter_responses (g : SeqState) (s : State) : (enter g s).responses = s.responses := rfl
@[simp] theorem enter_latency (g : SeqState) (s : State) : (enter g s).latency = s.latency := rfl
@[simp] theorem enter_accepted (g : SeqState) (s : State) : (enter g s).accepted = s.accepted := rfl
@[simp] theorem enter_busyReads (g : SeqState) (s : State) : (enter g s).busyReads = s.busyReads := rfl

@[simp] theorem accept_ie (w : Word) (s : State) : (accept w s).ie = s.ie := rfl
@[simp] theorem accept_busy (w : Word) (s : State) : (accept w s).busy = true := rfl
@[simp] theorem accept_done (w : Word) (s : State) : (accept w s).done = false := rfl
@[simp] theorem accept_werr (w : Word) (s : State) : (accept w s).werr = s.werr := rfl
@[simp] theorem accept_invused (w : Word) (s : State) : (accept w s).invused = s.invused := rfl
@[simp] theorem accept_cmd (w : Word) (s : State) : (accept w s).cmd = w := rfl
@[simp] theorem accept_resultCode (w : Word) (s : State) : (accept w s).resultCode = s.resultCode := rfl
@[simp] theorem accept_resultStage (w : Word) (s : State) : (accept w s).resultStage = s.resultStage := rfl
@[simp] theorem accept_seq (w : Word) (s : State) : (accept w s).seq = s.seq := rfl
@[simp] theorem accept_format (w : Word) (s : State) : (accept w s).format = s.format := rfl
@[simp] theorem accept_inLen (w : Word) (s : State) : (accept w s).inLen = s.inLen := rfl
@[simp] theorem accept_sbStart (w : Word) (s : State) : (accept w s).sbStart = s.sbStart := rfl
@[simp] theorem accept_esbStart (w : Word) (s : State) : (accept w s).esbStart = s.esbStart := rfl
@[simp] theorem accept_esbStep (w : Word) (s : State) : (accept w s).esbStep = s.esbStep := rfl
@[simp] theorem accept_sb (w : Word) (s : State) : (accept w s).sb = s.sb := rfl
@[simp] theorem accept_esb (w : Word) (s : State) : (accept w s).esb = s.esb := rfl
@[simp] theorem accept_attempts (w : Word) (s : State) : (accept w s).attempts = s.attempts := rfl
@[simp] theorem accept_cond (w : Word) (s : State) : (accept w s).cond = s.cond := rfl
@[simp] theorem accept_synd (w : Word) (s : State) : (accept w s).synd = s.synd := rfl
@[simp] theorem accept_shift (w : Word) (s : State) : (accept w s).shift = s.shift := rfl
@[simp] theorem accept_ctrlbits (w : Word) (s : State) : (accept w s).ctrlbits = s.ctrlbits := rfl
@[simp] theorem accept_dwcount (w : Word) (s : State) : (accept w s).dwcount = s.dwcount := rfl
@[simp] theorem accept_outNibs (w : Word) (s : State) : (accept w s).outNibs = s.outNibs := rfl
@[simp] theorem accept_res (w : Word) (s : State) : (accept w s).res = s.res := rfl
@[simp] theorem accept_scr (w : Word) (s : State) : (accept w s).scr = s.scr := rfl
@[simp] theorem accept_rem (w : Word) (s : State) : (accept w s).rem = s.rem := rfl
@[simp] theorem accept_ubuf (w : Word) (s : State) : (accept w s).ubuf = s.ubuf := rfl
@[simp] theorem accept_tbuf (w : Word) (s : State) : (accept w s).tbuf = s.tbuf := rfl
@[simp] theorem accept_tel (w : Word) (s : State) : (accept w s).tel = s.tel := rfl
@[simp] theorem accept_ibuf (w : Word) (s : State) : (accept w s).ibuf = s.ibuf := rfl
@[simp] theorem accept_wbuf (w : Word) (s : State) : (accept w s).wbuf = s.wbuf := rfl
@[simp] theorem accept_pbuf (w : Word) (s : State) : (accept w s).pbuf = s.pbuf := rfl
@[simp] theorem accept_first (w : Word) (s : State) : (accept w s).first = s.first := rfl
@[simp] theorem accept_pend (w : Word) (s : State) : (accept w s).pend = some w := rfl
@[simp] theorem accept_host (w : Word) (s : State) : (accept w s).host = s.host := rfl
@[simp] theorem accept_responses (w : Word) (s : State) : (accept w s).responses = s.responses := rfl
@[simp] theorem accept_latency (w : Word) (s : State) : (accept w s).latency = Config.acceptLatency s.accepted := rfl
@[simp] theorem accept_accepted (w : Word) (s : State) : (accept w s).accepted = s.accepted + 1 := rfl
@[simp] theorem accept_busyReads (w : Word) (s : State) : (accept w s).busyReads = s.busyReads := rfl

@[simp] theorem resetBlock_ie (s : State) : (resetBlock s).ie = State.reset.ie := rfl
@[simp] theorem resetBlock_busy (s : State) : (resetBlock s).busy = State.reset.busy := rfl
@[simp] theorem resetBlock_done (s : State) : (resetBlock s).done = State.reset.done := rfl
@[simp] theorem resetBlock_werr (s : State) : (resetBlock s).werr = State.reset.werr := rfl
@[simp] theorem resetBlock_invused (s : State) : (resetBlock s).invused = State.reset.invused := rfl
@[simp] theorem resetBlock_cmd (s : State) : (resetBlock s).cmd = State.reset.cmd := rfl
@[simp] theorem resetBlock_resultCode (s : State) : (resetBlock s).resultCode = State.reset.resultCode := rfl
@[simp] theorem resetBlock_resultStage (s : State) : (resetBlock s).resultStage = State.reset.resultStage := rfl
@[simp] theorem resetBlock_seq (s : State) : (resetBlock s).seq = State.reset.seq := rfl
@[simp] theorem resetBlock_format (s : State) : (resetBlock s).format = State.reset.format := rfl
@[simp] theorem resetBlock_inLen (s : State) : (resetBlock s).inLen = State.reset.inLen := rfl
@[simp] theorem resetBlock_sbStart (s : State) : (resetBlock s).sbStart = State.reset.sbStart := rfl
@[simp] theorem resetBlock_esbStart (s : State) : (resetBlock s).esbStart = State.reset.esbStart := rfl
@[simp] theorem resetBlock_esbStep (s : State) : (resetBlock s).esbStep = State.reset.esbStep := rfl
@[simp] theorem resetBlock_sb (s : State) : (resetBlock s).sb = State.reset.sb := rfl
@[simp] theorem resetBlock_esb (s : State) : (resetBlock s).esb = State.reset.esb := rfl
@[simp] theorem resetBlock_attempts (s : State) : (resetBlock s).attempts = State.reset.attempts := rfl
@[simp] theorem resetBlock_cond (s : State) : (resetBlock s).cond = State.reset.cond := rfl
@[simp] theorem resetBlock_synd (s : State) : (resetBlock s).synd = State.reset.synd := rfl
@[simp] theorem resetBlock_shift (s : State) : (resetBlock s).shift = State.reset.shift := rfl
@[simp] theorem resetBlock_ctrlbits (s : State) : (resetBlock s).ctrlbits = State.reset.ctrlbits := rfl
@[simp] theorem resetBlock_dwcount (s : State) : (resetBlock s).dwcount = State.reset.dwcount := rfl
@[simp] theorem resetBlock_outNibs (s : State) : (resetBlock s).outNibs = State.reset.outNibs := rfl
@[simp] theorem resetBlock_res (s : State) : (resetBlock s).res = State.reset.res := rfl
@[simp] theorem resetBlock_scr (s : State) : (resetBlock s).scr = State.reset.scr := rfl
@[simp] theorem resetBlock_rem (s : State) : (resetBlock s).rem = State.reset.rem := rfl
@[simp] theorem resetBlock_ubuf (s : State) : (resetBlock s).ubuf = State.reset.ubuf := rfl
@[simp] theorem resetBlock_tbuf (s : State) : (resetBlock s).tbuf = State.reset.tbuf := rfl
@[simp] theorem resetBlock_tel (s : State) : (resetBlock s).tel = State.reset.tel := rfl
@[simp] theorem resetBlock_ibuf (s : State) : (resetBlock s).ibuf = State.reset.ibuf := rfl
@[simp] theorem resetBlock_wbuf (s : State) : (resetBlock s).wbuf = State.reset.wbuf := rfl
@[simp] theorem resetBlock_pbuf (s : State) : (resetBlock s).pbuf = State.reset.pbuf := rfl
@[simp] theorem resetBlock_first (s : State) : (resetBlock s).first = State.reset.first := rfl
@[simp] theorem resetBlock_pend (s : State) : (resetBlock s).pend = State.reset.pend := rfl
@[simp] theorem resetBlock_host (s : State) : (resetBlock s).host = s.host := rfl
@[simp] theorem resetBlock_responses (s : State) : (resetBlock s).responses = s.responses := rfl
@[simp] theorem resetBlock_latency (s : State) : (resetBlock s).latency = s.latency := rfl
@[simp] theorem resetBlock_accepted (s : State) : (resetBlock s).accepted = s.accepted := rfl
@[simp] theorem resetBlock_busyReads (s : State) : (resetBlock s).busyReads = s.busyReads := rfl

@[simp] theorem softReset_ie (s : State) : (softReset s).ie = s.ie := rfl
@[simp] theorem softReset_busy (s : State) : (softReset s).busy = State.reset.busy := rfl
@[simp] theorem softReset_done (s : State) : (softReset s).done = true := rfl
@[simp] theorem softReset_werr (s : State) : (softReset s).werr = State.reset.werr := rfl
@[simp] theorem softReset_invused (s : State) : (softReset s).invused = State.reset.invused := rfl
@[simp] theorem softReset_cmd (s : State) : (softReset s).cmd = 0x01000000 := rfl
@[simp] theorem softReset_resultCode (s : State) : (softReset s).resultCode = .ok := rfl
@[simp] theorem softReset_resultStage (s : State) : (softReset s).resultStage = .done := rfl
@[simp] theorem softReset_seq (s : State) : (softReset s).seq = .done := rfl
@[simp] theorem softReset_format (s : State) : (softReset s).format = State.reset.format := rfl
@[simp] theorem softReset_inLen (s : State) : (softReset s).inLen = State.reset.inLen := rfl
@[simp] theorem softReset_sbStart (s : State) : (softReset s).sbStart = State.reset.sbStart := rfl
@[simp] theorem softReset_esbStart (s : State) : (softReset s).esbStart = State.reset.esbStart := rfl
@[simp] theorem softReset_esbStep (s : State) : (softReset s).esbStep = State.reset.esbStep := rfl
@[simp] theorem softReset_sb (s : State) : (softReset s).sb = State.reset.sb := rfl
@[simp] theorem softReset_esb (s : State) : (softReset s).esb = State.reset.esb := rfl
@[simp] theorem softReset_attempts (s : State) : (softReset s).attempts = State.reset.attempts := rfl
@[simp] theorem softReset_cond (s : State) : (softReset s).cond = State.reset.cond := rfl
@[simp] theorem softReset_synd (s : State) : (softReset s).synd = State.reset.synd := rfl
@[simp] theorem softReset_shift (s : State) : (softReset s).shift = State.reset.shift := rfl
@[simp] theorem softReset_ctrlbits (s : State) : (softReset s).ctrlbits = State.reset.ctrlbits := rfl
@[simp] theorem softReset_dwcount (s : State) : (softReset s).dwcount = State.reset.dwcount := rfl
@[simp] theorem softReset_outNibs (s : State) : (softReset s).outNibs = State.reset.outNibs := rfl
@[simp] theorem softReset_res (s : State) : (softReset s).res = State.reset.res := rfl
@[simp] theorem softReset_scr (s : State) : (softReset s).scr = State.reset.scr := rfl
@[simp] theorem softReset_rem (s : State) : (softReset s).rem = State.reset.rem := rfl
@[simp] theorem softReset_ubuf (s : State) : (softReset s).ubuf = State.reset.ubuf := rfl
@[simp] theorem softReset_tbuf (s : State) : (softReset s).tbuf = State.reset.tbuf := rfl
@[simp] theorem softReset_tel (s : State) : (softReset s).tel = State.reset.tel := rfl
@[simp] theorem softReset_ibuf (s : State) : (softReset s).ibuf = State.reset.ibuf := rfl
@[simp] theorem softReset_wbuf (s : State) : (softReset s).wbuf = State.reset.wbuf := rfl
@[simp] theorem softReset_pbuf (s : State) : (softReset s).pbuf = State.reset.pbuf := rfl
@[simp] theorem softReset_first (s : State) : (softReset s).first = State.reset.first := rfl
@[simp] theorem softReset_pend (s : State) : (softReset s).pend = State.reset.pend := rfl
@[simp] theorem softReset_host (s : State) : (softReset s).host = s.host := rfl
@[simp] theorem softReset_responses (s : State) : (softReset s).responses = s.responses := rfl
@[simp] theorem softReset_latency (s : State) : (softReset s).latency = s.latency := rfl
@[simp] theorem softReset_accepted (s : State) : (softReset s).accepted = s.accepted := rfl
@[simp] theorem softReset_busyReads (s : State) : (softReset s).busyReads = s.busyReads := rfl

@[simp] theorem setCond_ie (k : Nat) (b : Bool) (s : State) : (setCond k b s).ie = s.ie := rfl
@[simp] theorem setCond_busy (k : Nat) (b : Bool) (s : State) : (setCond k b s).busy = s.busy := rfl
@[simp] theorem setCond_done (k : Nat) (b : Bool) (s : State) : (setCond k b s).done = s.done := rfl
@[simp] theorem setCond_werr (k : Nat) (b : Bool) (s : State) : (setCond k b s).werr = s.werr := rfl
@[simp] theorem setCond_invused (k : Nat) (b : Bool) (s : State) : (setCond k b s).invused = s.invused := rfl
@[simp] theorem setCond_cmd (k : Nat) (b : Bool) (s : State) : (setCond k b s).cmd = s.cmd := rfl
@[simp] theorem setCond_resultCode (k : Nat) (b : Bool) (s : State) : (setCond k b s).resultCode = s.resultCode := rfl
@[simp] theorem setCond_resultStage (k : Nat) (b : Bool) (s : State) : (setCond k b s).resultStage = s.resultStage := rfl
@[simp] theorem setCond_seq (k : Nat) (b : Bool) (s : State) : (setCond k b s).seq = s.seq := rfl
@[simp] theorem setCond_format (k : Nat) (b : Bool) (s : State) : (setCond k b s).format = s.format := rfl
@[simp] theorem setCond_inLen (k : Nat) (b : Bool) (s : State) : (setCond k b s).inLen = s.inLen := rfl
@[simp] theorem setCond_sbStart (k : Nat) (b : Bool) (s : State) : (setCond k b s).sbStart = s.sbStart := rfl
@[simp] theorem setCond_esbStart (k : Nat) (b : Bool) (s : State) : (setCond k b s).esbStart = s.esbStart := rfl
@[simp] theorem setCond_esbStep (k : Nat) (b : Bool) (s : State) : (setCond k b s).esbStep = s.esbStep := rfl
@[simp] theorem setCond_sb (k : Nat) (b : Bool) (s : State) : (setCond k b s).sb = s.sb := rfl
@[simp] theorem setCond_esb (k : Nat) (b : Bool) (s : State) : (setCond k b s).esb = s.esb := rfl
@[simp] theorem setCond_attempts (k : Nat) (b : Bool) (s : State) : (setCond k b s).attempts = s.attempts := rfl
@[simp] theorem setCond_cond (k : Nat) (b : Bool) (s : State) : (setCond k b s).cond = (if b then s.cond ||| BitVec.twoPow 6 k else s.cond &&& ~~~(BitVec.twoPow 6 k)) := rfl
@[simp] theorem setCond_synd (k : Nat) (b : Bool) (s : State) : (setCond k b s).synd = s.synd := rfl
@[simp] theorem setCond_shift (k : Nat) (b : Bool) (s : State) : (setCond k b s).shift = s.shift := rfl
@[simp] theorem setCond_ctrlbits (k : Nat) (b : Bool) (s : State) : (setCond k b s).ctrlbits = s.ctrlbits := rfl
@[simp] theorem setCond_dwcount (k : Nat) (b : Bool) (s : State) : (setCond k b s).dwcount = s.dwcount := rfl
@[simp] theorem setCond_outNibs (k : Nat) (b : Bool) (s : State) : (setCond k b s).outNibs = s.outNibs := rfl
@[simp] theorem setCond_res (k : Nat) (b : Bool) (s : State) : (setCond k b s).res = s.res := rfl
@[simp] theorem setCond_scr (k : Nat) (b : Bool) (s : State) : (setCond k b s).scr = s.scr := rfl
@[simp] theorem setCond_rem (k : Nat) (b : Bool) (s : State) : (setCond k b s).rem = s.rem := rfl
@[simp] theorem setCond_ubuf (k : Nat) (b : Bool) (s : State) : (setCond k b s).ubuf = s.ubuf := rfl
@[simp] theorem setCond_tbuf (k : Nat) (b : Bool) (s : State) : (setCond k b s).tbuf = s.tbuf := rfl
@[simp] theorem setCond_tel (k : Nat) (b : Bool) (s : State) : (setCond k b s).tel = s.tel := rfl
@[simp] theorem setCond_ibuf (k : Nat) (b : Bool) (s : State) : (setCond k b s).ibuf = s.ibuf := rfl
@[simp] theorem setCond_wbuf (k : Nat) (b : Bool) (s : State) : (setCond k b s).wbuf = s.wbuf := rfl
@[simp] theorem setCond_pbuf (k : Nat) (b : Bool) (s : State) : (setCond k b s).pbuf = s.pbuf := rfl
@[simp] theorem setCond_first (k : Nat) (b : Bool) (s : State) : (setCond k b s).first = s.first := rfl
@[simp] theorem setCond_pend (k : Nat) (b : Bool) (s : State) : (setCond k b s).pend = s.pend := rfl
@[simp] theorem setCond_host (k : Nat) (b : Bool) (s : State) : (setCond k b s).host = s.host := rfl
@[simp] theorem setCond_responses (k : Nat) (b : Bool) (s : State) : (setCond k b s).responses = s.responses := rfl
@[simp] theorem setCond_latency (k : Nat) (b : Bool) (s : State) : (setCond k b s).latency = s.latency := rfl
@[simp] theorem setCond_accepted (k : Nat) (b : Bool) (s : State) : (setCond k b s).accepted = s.accepted := rfl
@[simp] theorem setCond_busyReads (k : Nat) (b : Bool) (s : State) : (setCond k b s).busyReads = s.busyReads := rfl

@[simp] theorem clearCheckConds_ie (s : State) : (clearCheckConds s).ie = s.ie := rfl
@[simp] theorem clearCheckConds_busy (s : State) : (clearCheckConds s).busy = s.busy := rfl
@[simp] theorem clearCheckConds_done (s : State) : (clearCheckConds s).done = s.done := rfl
@[simp] theorem clearCheckConds_werr (s : State) : (clearCheckConds s).werr = s.werr := rfl
@[simp] theorem clearCheckConds_invused (s : State) : (clearCheckConds s).invused = s.invused := rfl
@[simp] theorem clearCheckConds_cmd (s : State) : (clearCheckConds s).cmd = s.cmd := rfl
@[simp] theorem clearCheckConds_resultCode (s : State) : (clearCheckConds s).resultCode = s.resultCode := rfl
@[simp] theorem clearCheckConds_resultStage (s : State) : (clearCheckConds s).resultStage = s.resultStage := rfl
@[simp] theorem clearCheckConds_seq (s : State) : (clearCheckConds s).seq = s.seq := rfl
@[simp] theorem clearCheckConds_format (s : State) : (clearCheckConds s).format = s.format := rfl
@[simp] theorem clearCheckConds_inLen (s : State) : (clearCheckConds s).inLen = s.inLen := rfl
@[simp] theorem clearCheckConds_sbStart (s : State) : (clearCheckConds s).sbStart = s.sbStart := rfl
@[simp] theorem clearCheckConds_esbStart (s : State) : (clearCheckConds s).esbStart = s.esbStart := rfl
@[simp] theorem clearCheckConds_esbStep (s : State) : (clearCheckConds s).esbStep = s.esbStep := rfl
@[simp] theorem clearCheckConds_sb (s : State) : (clearCheckConds s).sb = s.sb := rfl
@[simp] theorem clearCheckConds_esb (s : State) : (clearCheckConds s).esb = s.esb := rfl
@[simp] theorem clearCheckConds_attempts (s : State) : (clearCheckConds s).attempts = s.attempts := rfl
@[simp] theorem clearCheckConds_cond (s : State) : (clearCheckConds s).cond = s.cond &&& 1 := rfl
@[simp] theorem clearCheckConds_synd (s : State) : (clearCheckConds s).synd = s.synd := rfl
@[simp] theorem clearCheckConds_shift (s : State) : (clearCheckConds s).shift = s.shift := rfl
@[simp] theorem clearCheckConds_ctrlbits (s : State) : (clearCheckConds s).ctrlbits = s.ctrlbits := rfl
@[simp] theorem clearCheckConds_dwcount (s : State) : (clearCheckConds s).dwcount = s.dwcount := rfl
@[simp] theorem clearCheckConds_outNibs (s : State) : (clearCheckConds s).outNibs = s.outNibs := rfl
@[simp] theorem clearCheckConds_res (s : State) : (clearCheckConds s).res = s.res := rfl
@[simp] theorem clearCheckConds_scr (s : State) : (clearCheckConds s).scr = s.scr := rfl
@[simp] theorem clearCheckConds_rem (s : State) : (clearCheckConds s).rem = s.rem := rfl
@[simp] theorem clearCheckConds_ubuf (s : State) : (clearCheckConds s).ubuf = s.ubuf := rfl
@[simp] theorem clearCheckConds_tbuf (s : State) : (clearCheckConds s).tbuf = s.tbuf := rfl
@[simp] theorem clearCheckConds_tel (s : State) : (clearCheckConds s).tel = s.tel := rfl
@[simp] theorem clearCheckConds_ibuf (s : State) : (clearCheckConds s).ibuf = s.ibuf := rfl
@[simp] theorem clearCheckConds_wbuf (s : State) : (clearCheckConds s).wbuf = s.wbuf := rfl
@[simp] theorem clearCheckConds_pbuf (s : State) : (clearCheckConds s).pbuf = s.pbuf := rfl
@[simp] theorem clearCheckConds_first (s : State) : (clearCheckConds s).first = s.first := rfl
@[simp] theorem clearCheckConds_pend (s : State) : (clearCheckConds s).pend = s.pend := rfl
@[simp] theorem clearCheckConds_host (s : State) : (clearCheckConds s).host = s.host := rfl
@[simp] theorem clearCheckConds_responses (s : State) : (clearCheckConds s).responses = s.responses := rfl
@[simp] theorem clearCheckConds_latency (s : State) : (clearCheckConds s).latency = s.latency := rfl
@[simp] theorem clearCheckConds_accepted (s : State) : (clearCheckConds s).accepted = s.accepted := rfl
@[simp] theorem clearCheckConds_busyReads (s : State) : (clearCheckConds s).busyReads = s.busyReads := rfl

@[simp] theorem clearStatus_ie (v : Word) (s : State) : (clearStatus v s).ie = s.ie := rfl
@[simp] theorem clearStatus_busy (v : Word) (s : State) : (clearStatus v s).busy = s.busy := rfl
@[simp] theorem clearStatus_done (v : Word) (s : State) : (clearStatus v s).done = (s.done && !v.getLsbD 1) := rfl
@[simp] theorem clearStatus_werr (v : Word) (s : State) : (clearStatus v s).werr = (s.werr && !v.getLsbD 3) := rfl
@[simp] theorem clearStatus_invused (v : Word) (s : State) : (clearStatus v s).invused = s.invused := rfl
@[simp] theorem clearStatus_cmd (v : Word) (s : State) : (clearStatus v s).cmd = s.cmd := rfl
@[simp] theorem clearStatus_resultCode (v : Word) (s : State) : (clearStatus v s).resultCode = s.resultCode := rfl
@[simp] theorem clearStatus_resultStage (v : Word) (s : State) : (clearStatus v s).resultStage = s.resultStage := rfl
@[simp] theorem clearStatus_seq (v : Word) (s : State) : (clearStatus v s).seq = s.seq := rfl
@[simp] theorem clearStatus_format (v : Word) (s : State) : (clearStatus v s).format = s.format := rfl
@[simp] theorem clearStatus_inLen (v : Word) (s : State) : (clearStatus v s).inLen = s.inLen := rfl
@[simp] theorem clearStatus_sbStart (v : Word) (s : State) : (clearStatus v s).sbStart = s.sbStart := rfl
@[simp] theorem clearStatus_esbStart (v : Word) (s : State) : (clearStatus v s).esbStart = s.esbStart := rfl
@[simp] theorem clearStatus_esbStep (v : Word) (s : State) : (clearStatus v s).esbStep = s.esbStep := rfl
@[simp] theorem clearStatus_sb (v : Word) (s : State) : (clearStatus v s).sb = s.sb := rfl
@[simp] theorem clearStatus_esb (v : Word) (s : State) : (clearStatus v s).esb = s.esb := rfl
@[simp] theorem clearStatus_attempts (v : Word) (s : State) : (clearStatus v s).attempts = s.attempts := rfl
@[simp] theorem clearStatus_cond (v : Word) (s : State) : (clearStatus v s).cond = s.cond := rfl
@[simp] theorem clearStatus_synd (v : Word) (s : State) : (clearStatus v s).synd = s.synd := rfl
@[simp] theorem clearStatus_shift (v : Word) (s : State) : (clearStatus v s).shift = s.shift := rfl
@[simp] theorem clearStatus_ctrlbits (v : Word) (s : State) : (clearStatus v s).ctrlbits = s.ctrlbits := rfl
@[simp] theorem clearStatus_dwcount (v : Word) (s : State) : (clearStatus v s).dwcount = s.dwcount := rfl
@[simp] theorem clearStatus_outNibs (v : Word) (s : State) : (clearStatus v s).outNibs = s.outNibs := rfl
@[simp] theorem clearStatus_res (v : Word) (s : State) : (clearStatus v s).res = s.res := rfl
@[simp] theorem clearStatus_scr (v : Word) (s : State) : (clearStatus v s).scr = s.scr := rfl
@[simp] theorem clearStatus_rem (v : Word) (s : State) : (clearStatus v s).rem = s.rem := rfl
@[simp] theorem clearStatus_ubuf (v : Word) (s : State) : (clearStatus v s).ubuf = s.ubuf := rfl
@[simp] theorem clearStatus_tbuf (v : Word) (s : State) : (clearStatus v s).tbuf = s.tbuf := rfl
@[simp] theorem clearStatus_tel (v : Word) (s : State) : (clearStatus v s).tel = s.tel := rfl
@[simp] theorem clearStatus_ibuf (v : Word) (s : State) : (clearStatus v s).ibuf = s.ibuf := rfl
@[simp] theorem clearStatus_wbuf (v : Word) (s : State) : (clearStatus v s).wbuf = s.wbuf := rfl
@[simp] theorem clearStatus_pbuf (v : Word) (s : State) : (clearStatus v s).pbuf = s.pbuf := rfl
@[simp] theorem clearStatus_first (v : Word) (s : State) : (clearStatus v s).first = s.first := rfl
@[simp] theorem clearStatus_pend (v : Word) (s : State) : (clearStatus v s).pend = s.pend := rfl
@[simp] theorem clearStatus_host (v : Word) (s : State) : (clearStatus v s).host = s.host := rfl
@[simp] theorem clearStatus_responses (v : Word) (s : State) : (clearStatus v s).responses = s.responses := rfl
@[simp] theorem clearStatus_latency (v : Word) (s : State) : (clearStatus v s).latency = s.latency := rfl
@[simp] theorem clearStatus_accepted (v : Word) (s : State) : (clearStatus v s).accepted = s.accepted := rfl
@[simp] theorem clearStatus_busyReads (v : Word) (s : State) : (clearStatus v s).busyReads = s.busyReads := rfl

end Sys2Proof.Machine
end

