-- ==== Sys2Proof/Laws/Ops.lean ====
section
/-! SUPPORT. For each shared operation of a command, once, what it can do. -/

namespace Sys2Proof.Machine

@[simp] theorem andThen_ok (s : State) (k : State → BodyResult) : (BodyResult.ok s).andThen k = k s := rfl
@[simp] theorem andThen_raised (c : ResultCode) (g : SeqState) (s : State) (k : State → BodyResult) :
    (BodyResult.raised c g s).andThen k = .raised c g s := rfl
@[simp] theorem catching_ok (s : State) (c : ResultCode) (h : State → BodyResult) : (BodyResult.ok s).catching c h = .ok s :=
  rfl
@[simp] theorem catching_raised (c' : ResultCode) (g : SeqState) (s : State) (c : ResultCode) (h : State → BodyResult) :
    (BodyResult.raised c' g s).catching c h = if c' = c then h s else .raised c' g s := rfl
@[simp] theorem state_ok (s : State) : (BodyResult.ok s).state = s := rfl
@[simp] theorem state_raised (c : ResultCode) (g : SeqState) (s : State) : (BodyResult.raised c g s).state = s := rfl
@[simp] theorem finish_ok (s : State) : (BodyResult.ok s).finish = complete s := rfl
@[simp] theorem finish_raised (c : ResultCode) (g : SeqState) (s : State) : (BodyResult.raised c g s).finish = raise c g s :=
  rfl

/-- A sequence ends raised by its first part, or runs its second part on what the first left. -/
theorem andThen_cases (r : BodyResult) (k : State → BodyResult) :
    (∃ s, r = .ok s ∧ r.andThen k = k s) ∨ ∃ c g s, r = .raised c g s ∧ r.andThen k = .raised c g s := by
  cases r with
  | ok s => exact .inl ⟨s, rfl, rfl⟩
  | raised c g s => exact .inr ⟨c, g, s, rfl, rfl⟩

theorem andThen_assoc (r : BodyResult) (k l : State → BodyResult) :
    (r.andThen k).andThen l = r.andThen fun s => (k s).andThen l := by
  cases r <;> rfl

/-- The FORMAT check answers SEQ_ERR with the state as it was, or runs the body in the held format (R106). -/
theorem withFormat_cases (own : SeqState) (body : Fmt → State → BodyResult) (s : State) :
    (s.format = none ∧ withFormat own body s = .raised .seqErr own s) ∨
    ∃ f, s.format = some f ∧ withFormat own body s = body f s := by
  cases h : s.format with
  | none => exact .inl ⟨rfl, by simp [withFormat, h]⟩
  | some f => exact .inr ⟨f, rfl, by simp [withFormat, h]⟩

theorem withFormat_none {own : SeqState} {body : Fmt → State → BodyResult} {s : State} (h : s.format = none) :
    withFormat own body s = .raised .seqErr own s := by simp [withFormat, h]

theorem withFormat_some {own : SeqState} {body : Fmt → State → BodyResult} {s : State} {f : Fmt} (h : s.format = some f) :
    withFormat own body s = body f s := by simp [withFormat, h]

/-- The end of a command: RESULT, SEQ, PEND, BUSY and DONE are written, everything else is what the body left (R244,
R245). -/
theorem finish_frame (r : BodyResult) : ∃ c g q, r.finish =
    { r.state with resultCode := c, resultStage := g, seq := q, pend := none, busy := false, done := true } := by
  cases r with
  | ok s => exact ⟨.ok, .done, .done, rfl⟩
  | raised c g s => exact ⟨c, g, .failed, rfl⟩

/-- An acceptance condition passes or rejects, by its Boolean alone (R198). -/
theorem conditionBody_cases (own : SeqState) (k : Nat) (ok : Bool) (s : State) :
    (ok = true ∧ conditionBody own k ok s = .ok (setCond k true (enter own s))) ∨
    (ok = false ∧ conditionBody own k ok s = .raised .reject own (setCond k false (enter own s))) := by
  cases ok with
  | true => exact .inl ⟨rfl, rfl⟩
  | false => exact .inr ⟨rfl, rfl⟩

/-- ADVANCE's loop passes, or raises EXHAUSTED at its own state; it writes SB, ESB, ATTEMPTS, FIRST and COND only
(R193). -/
theorem advanceLoop_cases (c : Config) (fuel : Nat) (s : State) : ∃ sb esb att fst cnd,
    advanceLoop c fuel s = .ok { s with sb := sb, esb := esb, attempts := att, first := fst, cond := cnd } ∨
    advanceLoop c fuel s =
      .raised .exhausted .advanceSbEsb { s with sb := sb, esb := esb, attempts := att, first := fst, cond := cnd } := by
  induction fuel generalizing s with
  | zero => exact ⟨s.sb, s.esb, s.attempts, s.first, s.cond, .inr rfl⟩
  | succ n ih =>
    simp only [advanceLoop]
    split
    · exact ⟨_, _, _, _, _, .inr rfl⟩
    · split
      · exact ⟨_, _, _, _, _, .inl rfl⟩
      · obtain ⟨sb, esb, att, fst, cnd, h⟩ := ih (countAttempt (moveToNext s))
        exact ⟨sb, esb, att, fst, cnd, h⟩

end Sys2Proof.Machine
end

