-- ==== Sys2Proof/Laws/PerInstr.lean ====
section
/-! SUPPORT. The per-instruction family TableWord: an instruction's word is one of its own row of spec/opcode_table.json. The
masks and matches below are the table's, written out apart from the encoder. -/

namespace Sys2Proof.Laws

/-- "mask" of the instruction's row of spec/opcode_table.json. -/
def tableMask : Instr → Word
  | .nop => 0xFFFFFFFF
  | .sreset => 0xFFFFFFFF
  | .clrin => 0xFFFFFFFF
  | .decode => 0xFFFFFFFF
  | .detect => 0xFFFFFFFF
  | .window => 0xFFFFFFFF
  | .gcheck => 0xFFFFFFFF
  | .fsynd => 0xFFFFFFFF
  | .subst => 0xFFFFFFFF
  | .valid => 0xFFFFFFFF
  | .invert => 0xFFFFFFFF
  | .descr => 0xFFFFFFFF
  | .final => 0xFFFFFFFF
  | .encode _ => 0xFF7FFFFF
  | .estart _ => 0xFF7FFFFF
  | .advance => 0xFFFFFFFF
  | .prep => 0xFFFFFFFF
  | .assemble => 0xFFFFFFFF
  | .calpha => 0xFFFFFFFF
  | .caper => 0xFFFFFFFF
  | .coffs => 0xFFFFFFFF
  | .cunder => 0xFFFFFFFF
  | .emit => 0xFFFFFFFF
  | .subenc _ => 0xFFFFFC00
  | .subdec _ => 0xFFFFF800
  | .scrseed _ _ => 0xFF7FF000
  | .scrstep _ => 0xFFFFFFFE
  | .polyrem _ _ => 0xFF1FFFFF

/-- "match" of the instruction's row of spec/opcode_table.json. -/
def tableMatch : Instr → Word
  | .nop => 0x00000000
  | .sreset => 0x01000000
  | .clrin => 0x02000000
  | .decode => 0x10000000
  | .detect => 0x11000000
  | .window => 0x12000000
  | .gcheck => 0x13000000
  | .fsynd => 0x14000000
  | .subst => 0x15000000
  | .valid => 0x16000000
  | .invert => 0x17000000
  | .descr => 0x18000000
  | .final => 0x19000000
  | .encode _ => 0x20000000
  | .estart _ => 0x21000000
  | .advance => 0x22000000
  | .prep => 0x23000000
  | .assemble => 0x24000000
  | .calpha => 0x25000000
  | .caper => 0x26000000
  | .coffs => 0x27000000
  | .cunder => 0x28000000
  | .emit => 0x29000000
  | .subenc _ => 0x30000000
  | .subdec _ => 0x31000000
  | .scrseed _ _ => 0x32000000
  | .scrstep _ => 0x33000000
  | .polyrem _ _ => 0x34000000

/-- The encoded word has the fixed bits of the instruction's row. -/
abbrev TableWord.Statement (i : Instr) : Prop := encode i &&& tableMask i = tableMatch i

theorem TableWord.nop : TableWord.Statement (.nop) := by decide
theorem TableWord.sreset : TableWord.Statement (.sreset) := by decide
theorem TableWord.clrin : TableWord.Statement (.clrin) := by decide
theorem TableWord.decode : TableWord.Statement (.decode) := by decide
theorem TableWord.detect : TableWord.Statement (.detect) := by decide
theorem TableWord.window : TableWord.Statement (.window) := by decide
theorem TableWord.gcheck : TableWord.Statement (.gcheck) := by decide
theorem TableWord.fsynd : TableWord.Statement (.fsynd) := by decide
theorem TableWord.subst : TableWord.Statement (.subst) := by decide
theorem TableWord.valid : TableWord.Statement (.valid) := by decide
theorem TableWord.invert : TableWord.Statement (.invert) := by decide
theorem TableWord.descr : TableWord.Statement (.descr) := by decide
theorem TableWord.final : TableWord.Statement (.final) := by decide
theorem TableWord.encode (fmt : Fmt) : TableWord.Statement (.encode fmt) := by cases fmt <;> decide
theorem TableWord.estart (fmt : Fmt) : TableWord.Statement (.estart fmt) := by cases fmt <;> decide
theorem TableWord.advance : TableWord.Statement (.advance) := by decide
theorem TableWord.prep : TableWord.Statement (.prep) := by decide
theorem TableWord.assemble : TableWord.Statement (.assemble) := by decide
theorem TableWord.calpha : TableWord.Statement (.calpha) := by decide
theorem TableWord.caper : TableWord.Statement (.caper) := by decide
theorem TableWord.coffs : TableWord.Statement (.coffs) := by decide
theorem TableWord.cunder : TableWord.Statement (.cunder) := by decide
theorem TableWord.emit : TableWord.Statement (.emit) := by decide
theorem TableWord.subenc (v : BitVec 10) : TableWord.Statement (.subenc v) := by
  revert v
  decide +kernel
theorem TableWord.subdec (w : BitVec 11) : TableWord.Statement (.subdec w) := by
  revert w
  decide +kernel
theorem TableWord.scrseed (fmt : Fmt) (sb : BitVec 12) : TableWord.Statement (.scrseed fmt sb) := by
  revert sb
  cases fmt <;> decide +kernel
theorem TableWord.scrstep (b : Bool) : TableWord.Statement (.scrstep b) := by cases b <;> decide
theorem TableWord.polyrem (fmt : Fmt) (sel : BitVec 2) : TableWord.Statement (.polyrem fmt sel) := by
  revert sel
  cases fmt <;> decide

end Sys2Proof.Laws
end

