-- ==== Sys2Proof/Laws/Port.lean ====
section
/-! SUPPORT. The host port and the step: once, what each can do. -/

namespace Sys2Proof.Machine

/-- Every register stands where its offset says (10_state.md R32). -/
theorem regAt_offset (r : PortReg) : regAt r.offset = some r := by cases r <;> rfl

theorem locate_reg (r : PortReg) : locate r.offset = .reg r := by cases r <;> rfl

/-- Every command answers a next state: the block has no fault (60_exceptions.md R240). -/
theorem exec_next (i : Instr) (s : State) : ∃ t, exec i s = .next t := by
  cases i <;> exact ⟨_, rfl⟩

theorem coreStep_next (w : Word) (s : State) : ∃ t, coreStep w s = .next t := by
  unfold coreStep
  split
  · exact ⟨_, rfl⟩
  · exact exec_next _ _

/-- A read changes what the host has been told and nothing else (20_memory.md R71). -/
theorem memRead_frame (off : Nat) (s : State) :
    ∃ w n, memRead off s = { s with responses := w :: s.responses, busyReads := n } := by
  unfold memRead
  split
  · exact ⟨_, _, rfl⟩
  · exact ⟨_, s.busyReads, rfl⟩

/-- A write is ignored, performed, issued, or dropped with WERR (70_reset_and_hazards.md R280). -/
theorem memWrite_cases (off : Nat) (v : Word) (s : State) :
    memWrite off v s = s ∨ memWrite off v s = storeLocation (locate off) v s ∨ memWrite off v s = accept v s ∨
    memWrite off v s = softReset s ∨ memWrite off v s = dropWrite s := by
  unfold memWrite issue
  split
  · exact .inl rfl
  · exact .inr (.inl rfl)
  · split
    · exact .inr (.inr (.inl rfl))
    · split
      · exact .inr (.inr (.inr (.inl rfl)))
      · exact .inr (.inr (.inr (.inr rfl)))
  · split
    · exact .inr (.inr (.inr (.inr rfl)))
    · exact .inr (.inl rfl)

/-- An access at a checked offset answers the access, or one of the two refusals (93 I12). -/
theorem atOffset_cases (off : Nat) (f : State → State) (s : State) :
    (off % 4 = 0 ∧ off < 0x1000 ∧ atOffset off f s = .next (f s)) ∨
    atOffset off f s = .refused (.misalignedOffset off) ∨ atOffset off f s = .refused (.offsetOutOfRange off) := by
  unfold atOffset
  split
  · exact .inr (.inl rfl)
  · split
    · exact .inr (.inr rfl)
    · exact .inl ⟨by omega, by omega, rfl⟩

/-- Nothing is in flight and nothing is to come: the block keeps its state (60_exceptions.md R258). -/
theorem step_idle {s : State} (hp : s.pend = none) (hh : s.host = []) : step s = .next s := by
  simp [step, blockStep, hp, hostStep, hh]

/-- A step is CORE's, or the outside's (70_reset_and_hazards.md R281). -/
theorem step_cases (s : State) :
    (∃ w, s.pend = some w ∧ (s.latency = 0 ∨ s.host = []) ∧ step s = coreStep w s) ∨ step s = hostStep s := by
  cases h : s.pend with
  | none => exact .inr (by simp [step, blockStep, h])
  | some w =>
    by_cases hc : s.latency = 0 ∨ s.host = []
    · exact .inl ⟨w, rfl, hc, by simp [step, blockStep, h, hc]⟩
    · exact .inr (by simp [step, blockStep, h, hc])

end Sys2Proof.Machine
end

