-- ==== Sys2Proof/Laws/Units.lean ====
section
/-! SUPPORT. The shared operations of the units, bit by bit and word by word: Expand and Contract (40_units.md R126), Scramble
(R132), Realign (41_decode.md R166), the header's place (42_encode.md R197) and LongestRun (R205). -/

namespace Sys2Proof.Machine

/-- Blocks placed one after another, read bit by bit. -/
theorem bitAt_foldl_place {w m : Nat} (g : Nat → BitVec m) (b0 : BitVec w) (n : Nat) (h : m * n ≤ w) (i : Nat) :
    bitAt ((List.range n).foldl (fun b j => place b (m * j) (g j)) b0) i =
      if i < m * n then bitAt (g (i / m)) (i % m) else bitAt b0 i := by
  induction n with
  | zero => simp
  | succ n ih =>
    have hs : m * (n + 1) = m * n + m := Nat.mul_succ m n
    rw [List.range_succ, List.foldl_append, List.foldl_cons, List.foldl_nil, bitAt_place _ _ (by omega), ih (by omega)]
    by_cases h1 : i < m * n
    · rw [if_neg (by omega), if_pos h1, if_pos (by omega)]
    · by_cases h2 : i < m * (n + 1)
      · have hd : i / m = n := Nat.div_eq_of_lt_le (by rw [Nat.mul_comm]; omega) (by rw [Nat.mul_comm]; omega)
        have hm : i % m = i - m * n := by
          have := Nat.div_add_mod i m
          rw [hd] at this
          omega
        rw [if_pos (by omega), if_pos h2, hd, hm]
      · rw [if_neg (by omega), if_neg h1, if_neg h2]

/-- Block j of blocks placed one after another. -/
theorem slice_foldl_place {w m : Nat} (g : Nat → BitVec m) (b0 : BitVec w) (n : Nat) (h : m * n ≤ w) {j : Nat} (hj : j < n) :
    slice ((List.range n).foldl (fun b j => place b (m * j) (g j)) b0) (m * j) m = g j := by
  have hjn : m * (j + 1) ≤ m * n := Nat.mul_le_mul_left m hj
  have hs : m * (j + 1) = m * j + m := Nat.mul_succ m j
  refine eq_of_bitAt fun i hi => ?_
  rw [bitAt_slice _ hi (by omega), bitAt_foldl_place g b0 n h, if_pos (by omega), Nat.mul_add_div (by omega),
    Nat.mul_add_mod, Nat.div_eq_of_lt hi, Nat.mod_eq_of_lt hi, Nat.add_zero]

theorem Fmt.words_fit (f : Fmt) : 10 * f.K ≤ 830 ∧ 11 * f.K ≤ 913 ∧ f.M = 10 * f.K ∧ f.P + 25 + 85 = f.N ∧ f.N ≤ 1023 := by
  cases f <;> decide

/-- Codeword j of PBUF after Expand (R126). -/
theorem expand_block (c : Config) (f : Fmt) (w : BitVec 830) {j : Nat} (hj : j < f.K) :
    slice (expand c f w) (11 * j) 11 = c.subEnc (slice w (10 * j) 10) :=
  slice_foldl_place (fun j => c.subEnc (slice w (10 * j) 10)) 0 f.K (Fmt.words_fit f).2.1 hj

/-- PBUF beyond the format's codewords after Expand (R126). -/
theorem expand_tail (c : Config) (f : Fmt) (w : BitVec 830) {i : Nat} (hi : f.P ≤ i) : bitAt (expand c f w) i = false := by
  have h : ¬i < 11 * f.K := Nat.not_lt.mpr hi
  exact (bitAt_foldl_place (fun j => c.subEnc (slice w (10 * j) 10)) 0 f.K (Fmt.words_fit f).2.1 i).trans
    ((if_neg h).trans (bitAt_zero i))

/-- Word j of WBUF after Contract (R126). -/
theorem contract_word (c : Config) (f : Fmt) (tel : BitVec 1023) {j : Nat} (hj : j < f.K) :
    slice (contract c f tel) (10 * j) 10 = contractLane c tel j :=
  slice_foldl_place (contractLane c tel) 0 f.K (Fmt.words_fit f).1 hj

/-- WBUF beyond the format's words after Contract (R126). -/
theorem contract_tail (c : Config) (f : Fmt) (tel : BitVec 1023) {i : Nat} (hi : 10 * f.K ≤ i) :
    bitAt (contract c f tel) i = false :=
  (bitAt_foldl_place (contractLane c tel) 0 f.K (Fmt.words_fit f).1 i).trans
    ((if_neg (Nat.not_lt.mpr hi)).trans (bitAt_zero i))

/-- The candidate, bit by bit (10_state.md R55). -/
theorem bitAt_candidate (f : Fmt) (tel : BitVec 1023) {i : Nat} (hi : i < f.N) : bitAt (candidate f tel) i = bitAt tel i := by
  rw [candidate, bitAt_slice _ hi (by have := (Fmt.words_fit f).2.2.2.2; omega), Nat.zero_add]

/-- Realign, bit by bit (R166). -/
theorem bitAt_realign (f : Fmt) (tel : BitVec 1023) (e i : Nat) :
    bitAt (realign f tel e) i = if i < f.N then bitAt tel ((i + e) % f.N) else false := by
  have hN : 0 < f.N := by cases f <;> decide
  rw [realign, bitAt_padTo _ (Fmt.words_fit f).2.2.2.2]
  by_cases hi : i < f.N
  · rw [if_pos hi, bitAt_rotateLeft _ _ hi, bitAt_candidate f tel (Nat.mod_lt _ hN)]
  · rw [if_neg hi, bitAt_of_le _ (Nat.not_lt.mp hi)]

/-- The candidate before its check bits, bit by bit (42_encode.md R197). -/
theorem bitAt_assembled (f : Fmt) (p : BitVec 913) (sb : BitVec 12) (esb : BitVec 10) (i : Nat) :
    bitAt (assembled f p sb esb) i =
      if i < f.P then bitAt p i else if i < f.P + 25 then bitAt (hdr sb esb) (i - f.P) else false := by
  have hP : f.P ≤ 913 ∧ f.P + 25 ≤ 1023 := by cases f <;> decide
  rw [assembled, bitAt_place _ _ hP.2, bitAt_padTo _ (by omega)]
  by_cases h1 : i < f.P
  · rw [if_neg (by omega), if_pos h1, bitAt_slice _ h1 (by omega), Nat.zero_add]
  · by_cases h2 : i < f.P + 25
    · rw [if_pos (by omega), if_neg h1, if_pos h2]
    · rw [if_neg (by omega), if_neg h1, if_neg h2, bitAt_of_le _ (by omega)]

/-! ### Scramble -/

/-- The scrambler's state before bit i (R132), along the run over the word w from the state g. -/
def scrambleState (c : Config) (dir : ScrambleDir) (w : BitVec 830) (g : BitVec 33) : Nat → BitVec 33
  | 0 => g
  | i + 1 =>
    let s := scrambleState c dir w g i
    c.scrAdv s (feedbackBit c.scrFb dir (bitAt w i) (bitAt w i ^^ scramblerOut s))

/-- The first n turns of Scramble's loop (R132): SCR is the n-th state, the first n bits are XORed with the output bits, the
others stay. -/
theorem scramble_turns (c : Config) (dir : ScrambleDir) (w : BitVec 830) (g : BitVec 33) (n : Nat) (hn : n ≤ 830) :
    ((List.range n).foldl (scrambleBit c dir) (g, w)).1 = scrambleState c dir w g n ∧
    ∀ i, bitAt ((List.range n).foldl (scrambleBit c dir) (g, w)).2 i =
      if i < n then bitAt w i ^^ scramblerOut (scrambleState c dir w g i) else bitAt w i := by
  induction n with
  | zero => exact ⟨rfl, by simp⟩
  | succ n ih =>
    obtain ⟨h1, h2⟩ := ih (by omega)
    have hb : bitAt ((List.range n).foldl (scrambleBit c dir) (g, w)).2 n = bitAt w n := by rw [h2, if_neg (by omega)]
    rw [List.range_succ, List.foldl_append, List.foldl_cons, List.foldl_nil]
    refine ⟨by simp only [scrambleBit, h1, hb, scrambleState], fun i => ?_⟩
    simp only [scrambleBit, h1, hb]
    rw [bitAt_place _ _ (by omega), h2]
    by_cases h : i = n
    · subst h
      rw [if_pos (by omega), if_pos (by omega), Nat.sub_self]
      cases bitAt w i <;> cases scramblerOut (scrambleState c dir w g i) <;> rfl
    · by_cases h3 : i < n
      · rw [if_neg (by omega), if_pos h3, if_pos (by omega)]
      · rw [if_neg (by omega), if_neg h3, if_neg (by omega)]

/-- Scramble (R132): everything it does. -/
theorem scramble_spec (c : Config) (f : Fmt) (sb : BitVec 12) (dir : ScrambleDir) (w : BitVec 830) :
    (scramble c f sb dir w).1 = scrambleState c dir (padTo 830 (slice w 0 f.M)) (seedState c f sb) f.M ∧
    ∀ i, bitAt (scramble c f sb dir w).2 i =
      if i < f.M then bitAt w i ^^ scramblerOut (scrambleState c dir (padTo 830 (slice w 0 f.M)) (seedState c f sb) i)
      else false := by
  have hM : f.M ≤ 830 := by cases f <;> decide
  obtain ⟨h1, h2⟩ := scramble_turns c dir (padTo 830 (slice w 0 f.M)) (seedState c f sb) f.M hM
  refine ⟨h1, fun i => (h2 i).trans ?_⟩
  by_cases h : i < f.M
  · rw [if_pos h, if_pos h, bitAt_padTo _ hM, bitAt_slice _ h (by omega), Nat.zero_add]
  · rw [if_neg h, if_neg h, bitAt_padTo _ hM, bitAt_of_le _ (Nat.not_lt.mp h)]

/-! ### LongestRun -/

/-- The run that ends a sequence and its longest run, after one more element. -/
theorem longestRun_append (v : List Bool) (b : Bool) :
    (v ++ [b]).foldl runStep (0, 0) = runStep (v.foldl runStep (0, 0)) b := by
  rw [List.foldl_append, List.foldl_cons, List.foldl_nil]

/-- What LongestRun's loop keeps (R205): the run at the end is true elements up to a false one or the start, it is no longer than
the longest, and a longest run of m or less means that no m + 1 consecutive elements are all true. -/
theorem longestRun_loop (v : List Bool) :
    (v.foldl runStep (0, 0)).1 ≤ v.length ∧
    (v.foldl runStep (0, 0)).1 ≤ (v.foldl runStep (0, 0)).2 ∧
    (∀ j, v.length - (v.foldl runStep (0, 0)).1 ≤ j → j < v.length → v[j]? = some true) ∧
    ((v.foldl runStep (0, 0)).1 < v.length → v[v.length - 1 - (v.foldl runStep (0, 0)).1]? = some false) ∧
    ∀ m, (v.foldl runStep (0, 0)).2 ≤ m ↔
      ∀ a, a + (m + 1) ≤ v.length → ∃ j, a ≤ j ∧ j < a + (m + 1) ∧ v[j]? = some false := by
  induction v using List.reverseRecOn with
  | nil => simp
  | append_singleton v b ih =>
    rw [longestRun_append]
    obtain ⟨h1, h2, h3, h4, h5⟩ := ih
    generalize v.foldl runStep (0, 0) = p at *
    obtain ⟨cur, best⟩ := p
    simp only at h1 h2 h3 h4 h5
    cases b with
    | false =>
      simp only [runStep, Bool.false_eq_true, if_false, List.length_append, List.length_singleton]
      refine ⟨by omega, by omega, fun j hj hj' => by omega, fun _ => by simp, fun m => ?_⟩
      rw [h5]
      constructor
      · intro h a ha
        by_cases hl : a + (m + 1) ≤ v.length
        · obtain ⟨j, hj1, hj2, hj3⟩ := h a hl
          exact ⟨j, hj1, hj2, by rw [List.getElem?_append_left (by omega)]; exact hj3⟩
        · exact ⟨v.length, by omega, by omega, by simp⟩
      · intro h a ha
        obtain ⟨j, hj1, hj2, hj3⟩ := h a (by omega)
        rw [List.getElem?_append_left (by omega)] at hj3
        exact ⟨j, hj1, hj2, hj3⟩
    | true =>
      simp only [runStep, if_true, List.length_append, List.length_singleton]
      refine ⟨by omega, Nat.le_max_right _ _, fun j hj hj' => ?_, fun hlt => ?_, fun m => ?_⟩
      · by_cases hl : j < v.length
        · rw [List.getElem?_append_left hl]
          exact h3 j (by omega) hl
        · have : j = v.length := by omega
          subst this
          simp
      · have h6 := h4 (by omega)
        have h7 : v.length + 1 - 1 - (cur + 1) = v.length - 1 - cur := by omega
        rw [h7, List.getElem?_append_left (by omega)]
        exact h6
      · rw [Nat.max_le, h5]
        constructor
        · rintro ⟨h, hc⟩ a ha
          by_cases hl : a + (m + 1) ≤ v.length
          · obtain ⟨j, hj1, hj2, hj3⟩ := h a hl
            exact ⟨j, hj1, hj2, by rw [List.getElem?_append_left (by omega)]; exact hj3⟩
          · refine ⟨v.length - 1 - cur, by omega, by omega, ?_⟩
            rw [List.getElem?_append_left (by omega)]
            exact h4 (by omega)
        · intro h
          refine ⟨fun a ha => ?_, ?_⟩
          · obtain ⟨j, hj1, hj2, hj3⟩ := h a (by omega)
            rw [List.getElem?_append_left (by omega)] at hj3
            exact ⟨j, hj1, hj2, hj3⟩
          · by_contra hc
            obtain ⟨j, hj1, hj2, hj3⟩ := h (v.length + 1 - (m + 1)) (by omega)
            by_cases hl : j < v.length
            · rw [List.getElem?_append_left hl, h3 j (by omega) hl] at hj3
              cases hj3
            · have : j = v.length := by omega
              subst this
              simp at hj3

/-- LongestRun is at most m exactly when m + 1 consecutive elements always hold a false one (R205). -/
theorem longestRun_le_iff (v : List Bool) (m : Nat) :
    longestRun v ≤ m ↔ ∀ a, a + (m + 1) ≤ v.length → ∃ j, a ≤ j ∧ j < a + (m + 1) ∧ v[j]? = some false :=
  (longestRun_loop v).2.2.2.2 m

end Sys2Proof.Machine
end

