-- ==== Sys2Proof/Tests/Slice0.lean ====
section
/-! SUPPORT. Tests. Expected values are those of spec/95_test_vectors.md (the vector's name stands in the comment), or are
written out by hand from the rule named. The commands that read the configuration are tested through their bodies, with the
spec's own TOY configuration. witness_<Name> shows a state and operands that meet the hypotheses of Obligations.<Name>. -/

namespace Sys2Proof.Tests

open Sys2Proof.Machine Sys2Proof.Machine.Claims

/-! ### Well-formedness: each check refuses its ill-formed term -/

theorem test_reserved_selector_refused : Instr.wellFormed (.polyrem .short 3) = false := by decide
theorem test_other_selectors_accepted : ∀ sel : BitVec 2, sel ≠ 3 → Instr.wellFormed (.polyrem .long sel) = true := by decide
theorem test_misaligned_access_refused : HostEvent.wellFormed (.read 2) = false ∧ HostEvent.wellFormed (.write 0x101 0) = false := by
  decide
theorem test_outside_access_refused :
    HostEvent.wellFormed (.read 0x1000) = false ∧ HostEvent.wellFormed (.write 0xFFC 0) = true := by decide
theorem test_wrong_product_refused : ¬Config.WellFormed { Config.sample with fgPoly := fun _ => 1 } := fun h =>
  absurd (h.product .short) (by decide)
theorem test_wide_product_refused : ¬Config.WellFormed { Config.sample with fgPoly := fun _ => 2 ^ 86 } := fun h =>
  absurd (h.fgDegree .long) (by unfold Machine.degLe; decide)
theorem test_wide_f_refused : ¬Config.WellFormed { Config.sample with fPoly := fun _ => 2 ^ 17 } := fun h =>
  absurd (h.fDegree .long) (by unfold Machine.degLe; decide)
theorem test_even_multiplier_refused : ¬Config.WellFormed { Config.sample with scrMult := fun _ => 2 } := fun h =>
  absurd (h.multOdd .short) (by decide)
theorem test_lossy_code_refused : ¬Config.WellFormed { Config.sample with subEnc := fun _ => 0 } := fun h =>
  absurd (h.decEnc 1) (by decide)
theorem test_misplaced_base_refused : ¬Config.WellFormed { Config.sample with base := 4 } := fun h =>
  absurd h.baseAligned (by decide)

/-! ### Decoding: words written out from 30_encoding.md R101-R103 -/

theorem test_decode_control : decode 0x00000000 = .ok .nop ∧ decode 0x01000000 = .ok .sreset ∧ decode 0x02000000 = .ok .clrin := by
  decide
theorem test_decode_decoder :
    decode 0x10000000 = .ok .decode ∧ decode 0x11000000 = .ok .detect ∧ decode 0x12000000 = .ok .window ∧
    decode 0x13000000 = .ok .gcheck ∧ decode 0x14000000 = .ok .fsynd ∧ decode 0x15000000 = .ok .subst ∧
    decode 0x16000000 = .ok .valid ∧ decode 0x17000000 = .ok .invert ∧ decode 0x18000000 = .ok .descr ∧
    decode 0x19000000 = .ok .final := by decide
theorem test_decode_encoder :
    decode 0x20800000 = .ok (.encode .long) ∧ decode 0x21000000 = .ok (.estart .short) ∧ decode 0x22000000 = .ok .advance ∧
    decode 0x23000000 = .ok .prep ∧ decode 0x24000000 = .ok .assemble ∧ decode 0x25000000 = .ok .calpha ∧
    decode 0x26000000 = .ok .caper ∧ decode 0x27000000 = .ok .coffs ∧ decode 0x28000000 = .ok .cunder ∧
    decode 0x29000000 = .ok .emit := by decide
/-- The words of 95 V-U1, V-U2, V-U4a, V-U4 and V-U8a. -/
theorem test_decode_units :
    decode 0x30000155 = .ok (.subenc 0x155) ∧ decode 0x310002AA = .ok (.subdec 0x2AA) ∧
    decode 0x32800123 = .ok (.scrseed .long 0x123) ∧ decode 0x33000001 = .ok (.scrstep true) ∧
    decode 0x34400000 = .ok (.polyrem .short 2) := by decide
/-- V-X3's words, and V-U12, V-U13: reserved encodings. -/
theorem test_decode_reserved : ([0x03000000, 0x10000001, 0x00000001, 0x20400000, 0xFF000000, 0x33000002, 0x32001000, 0x34600000,
    0x30000400].all fun w => (decode w).toOption.isNone) = true := by decide
theorem test_table_word : decodeTableWord 32 0x32800123 = some (.scrseed .long 0x123) := by decide

/-! ### Assembly text (30_encoding.md R107, R108) -/

theorem test_assemble_line :
    (assembleLine ['g', 'o', ':', ' ', 's', 'u', 'b', 'e', 'n', 'c', ' ', '0', 'x', '1', '5', '5', ' ', ';', 'x']) =
      .ok (some (.subenc 0x155)) := by decide
theorem test_assemble_too_wide :
    (assembleLine ['S', 'U', 'B', 'E', 'N', 'C', ' ', '1', '0', '2', '4']) = .error .operandTooWide := by decide
theorem test_push_hex : pushHex [1, 2, 3, 4, 5, 6, 7, 8, 9] = [.write 0x024 0x12345678, .write 0x020 9] := by decide

/-! ### The port -/

/-- The reset state with a format. -/
def withFmt (f : Fmt) : State := { State.reset with format := some f }

/-- The reset state with a command word in flight. -/
def inFlight (w : Word) : State := State.reset.withFetchWord 32 w.toNat

/-- V-C18. -/
theorem test_push_word : (memWrite 0x024 0x12345678 State.reset).inLen = 8 ∧
    readLocation (locate 0x47C) (memWrite 0x024 0x12345678 State.reset) = 0x12345678 := by decide +kernel
/-- V-X10. -/
theorem test_format_write_three : (memWrite 0x018 3 (withFmt .long)).format = none := by decide
/-- V-X13. -/
theorem test_unmapped_reads_zero : readLocation (locate 0x070) State.reset = 0 ∧ readLocation (locate 0x800) State.reset = 0 := by
  decide
/-- V-X7. -/
theorem test_busy_write_dropped : (memWrite 0x100 0xFFFFFFFF (inFlight 0x20800000)).ubuf = 0 ∧
    (memWrite 0x100 0xFFFFFFFF (inFlight 0x20800000)).werr = true := by decide +kernel
/-- V-X9. -/
theorem test_sreset_aborts : (memWrite 0x00C 0x01000000 (inFlight 0x20800000)).pend = none ∧
    (memWrite 0x00C 0x01000000 (inFlight 0x20800000)).seq = .done := by decide
/-- V-X3: an unassigned opcode. -/
theorem test_illegal_word : ∃ t, step (inFlight 0x03000000) = .next t ∧ resultWord t = 0x3007 ∧ statusWord t = 0x06 :=
  ⟨_, rfl, by decide, by decide⟩

/-! ### Commands that read no table -/

/-- V-X4. -/
theorem test_nop : ∃ t, step (inFlight 0) = .next t ∧ resultWord t = 0x0900 ∧ statusWord t = 0x02 := ⟨_, rfl, by decide, by decide⟩
/-- R231: SB_START is cleared, CTRL kept. -/
theorem test_sreset : ∃ t, exec .sreset { State.reset with ie := true, sbStart := 5 } = .next t ∧ t.ie = true ∧ t.sbStart = 0 :=
  ⟨_, rfl, by decide, by decide⟩
/-- R232. -/
theorem test_clrin : ∃ t, exec .clrin { State.reset with inLen := 9, ibuf := 7 } = .next t ∧ t.inLen = 0 ∧ t.ibuf = 0 :=
  ⟨_, rfl, by decide +kernel, by decide +kernel⟩
/-- V-C1. -/
theorem test_detect_85 : ∃ t, exec .detect { State.reset with inLen := 85 } = .next t ∧ resultWord t = 0x0101 ∧ t.format = none :=
  ⟨_, rfl, by decide, by decide⟩
/-- V-C2, V-C3, V-C4. -/
theorem test_detect_boundaries : (detectBody { State.reset with inLen := 86 }).state.format = some .short ∧
    (detectBody { State.reset with inLen := 255 }).state.format = some .short ∧
    (detectBody { State.reset with inLen := 256 }).state.format = some .long := by decide
/-- V-C17. -/
theorem test_window : (windowBody .short { State.reset with ibuf := (1 : BitVec 1024) ||| (8 <<< 340) }).state.tel =
    BitVec.twoPow 1023 682 := by decide +kernel
/-- V-X1. -/
theorem test_window_needs_format : ∃ t, exec .window State.reset = .next t ∧ resultWord t = 0x0208 := ⟨_, rfl, by decide⟩
/-- V-C11. -/
theorem test_invert : (invertBody .short State.reset).state.tel = (BitVec.allOnes 341).setWidth 1023 <<< 682 := by decide +kernel
/-- V-C15 and V-C16: the words (3, 1, 2, 0, …) and (0, 1, 0, …). -/
theorem test_final : slice (finalBody .short { State.reset with wbuf := (0x300402 : BitVec 830) <<< 800 }).state.ubuf 0 10 = 0 ∧
    slice (finalBody .short { State.reset with wbuf := (1 : BitVec 830) <<< 810 }).state.ubuf 0 10 = 1023 := by decide +kernel
/-- V-C8: OUT_NIBS. -/
theorem test_final_digits : ∃ t, exec .final (withFmt .short) = .next t ∧ t.outNibs = 53 ∧ resultWord t = 0x0900 :=
  ⟨_, rfl, by decide, by decide⟩
/-- R191. -/
theorem test_estart : ∃ t, exec (.estart .long) { State.reset with sbStart := 7, esbStart := 9, cond := 5 } = .next t ∧ t.sb = 7 ∧
    t.esb = 9 ∧ t.first = true ∧ t.cond = 0 := ⟨_, rfl, by decide⟩
/-- V-C21 and V-C22. -/
theorem test_inc : incPair 1000 (4095, 1000) = (0, 976) ∧ incPair (searchStep 0) (0, 0) = (0, 1) := by decide
/-- V-C20. -/
theorem test_header : hdr 0x123 177 = 0x448CB1 := by decide
/-- V-C12 and V-C13. -/
theorem test_caper : aperiodPairOk .long 0 0 0 = false ∧ aperiodicityOk .short 0 = true := by decide +kernel
/-- R208: a SHORT telegram is padded by three 0 bits. -/
theorem test_emit : ∃ t, exec .emit { withFmt .short with tel := BitVec.allOnes 1023 } = .next t ∧ slice t.tbuf 336 8 = 0xF8 ∧
    t.outNibs = 86 := ⟨_, rfl, by decide +kernel, by decide +kernel⟩

/-! ### TOY (95 §3) -/

/-- F_POLY of TOY. -/
def toyF : Fmt → Nat
  | .short => 0x40F
  | .long => 0x409

/-- G_POLY of TOY. -/
def toyG : Fmt → Nat
  | .short => 0x87A819C4A32C13BBB31
  | .long => 0x9BD7522D9E4D18496AD

/-- FG_POLY of TOY. -/
def toyFG : Fmt → Nat
  | .short => 0x2190B7F91F6C0EA0933C1F
  | .long => 0x26B182575385844FFA97C5

/-- The toy configuration of 95 §3. -/
def toy : Config where
  fPoly := toyF
  gPoly := toyG
  fgPoly := toyFG
  subEnc v := v ++ BitVec.ofBool (v.getLsbD 9)
  subDec w := if w.getLsbD 10 = w.getLsbD 0 then some (w.extractLsb' 1 10) else none
  synIdx f s :=
    ((List.range f.N).find? fun r => (polyMod (toyG f <<< r) (toyF f)).1 == s.toNat).map fun r => (f.N - r) % f.N
  scrMult
    | .short => 0x9E3779B1
    | .long => 0x85EBCA77
  scrAdv s b := BitVec.ofBool b ++ (s.extractLsb' 1 32 ^^^ (if s.getLsbD 0 then 0x80200003 else 0))
  osMax f o := if o = 0 then (match f with | .short => 62 | .long => 186) else 20
  base := 0
  irqLine := 0

theorem toy_wellFormed : toy.WellFormed where
  product f := by cases f <;> decide +kernel
  fgDegree f := by cases f <;> · unfold Machine.degLe; decide +kernel
  fDegree f := by cases f <;> · unfold Machine.degLe; decide +kernel
  multOdd f := by cases f <;> decide
  decEnc v := by revert v; decide +kernel
  baseAligned := rfl

/-- V-U1. -/
theorem test_subenc : (subencBody toy 0x155 State.reset).state.res = 0x2AA := by decide
/-- V-U2 and V-U3. -/
theorem test_subdec : (subdecBody toy 0x2AA State.reset).state.res = 0x155 ∧ (subdecBody toy 0x2AB State.reset).state.res = 0x80000000 := by
  decide
/-- V-U4. -/
theorem test_scrseed : (scrseedBody toy .short 1 State.reset).state.scr = 0x09E3779B1 := by decide
/-- V-U4b. -/
theorem test_scrseed_wraps : (scrseedBody toy .short 0x123 State.reset).state.res = 0xD90F5433 := by decide
/-- V-U4: the second and third steps. -/
theorem test_scrstep : (scrstepBody toy true { State.reset with scr := 0x0CF3BBCDB }).state.scr = 0x1E7BDDE6E ∧
    (scrstepBody toy true { State.reset with scr := 0x1E7BDDE6E }).state.res = 0 := by decide
/-- V-U7 and V-U8, on the telegram G_POLY. -/
theorem test_polyrem : (polyremBy .short (toyG .short) { State.reset with tel := BitVec.ofNat 1023 (toyG .short) <<< 682 }).state.res = 1 ∧
    (polyremBody toy .short 0 { State.reset with tel := BitVec.ofNat 1023 (toyG .short) <<< 682 }).state.rem = 0x217 := by
  decide +kernel
/-- V-U12. -/
theorem test_polyrem_reserved : ∃ t, exec (.polyrem .short 3) State.reset = .next t ∧ resultWord t = 0x3007 := ⟨_, rfl, by decide⟩
/-- The telegram with TEL[0] = 1 only (V-U10). -/
def oneTel : State := { withFmt .short with tel := BitVec.twoPow 1023 1022 }
/-- V-U11: the remainder by G. -/
theorem test_gcheck : (gcheckBody toy .short oneTel).finish.rem = 0x43D40CE2519609DDD98 ∧
    (gcheckBody toy .short oneTel).finish.resultCode = .synErr := by decide +kernel
/-- V-D11. -/
theorem test_fsynd : (fsyndBody toy .short oneTel).state.synd = 0x207 := by decide +kernel
/-- R164, R165, R244, R247: on DIVZ GCHECK has written REM, FSYND has not. -/
theorem test_divz_rem : (gcheckBody Config.sample .short { oneTel with rem := 5 }).finish.rem = 0 ∧
    (fsyndBody Config.sample .short { oneTel with rem := 5 }).finish.rem = 5 ∧
    (fsyndBody Config.sample .short { oneTel with rem := 5 }).finish.resultCode = .divz := by decide +kernel
/-- V-D11a. -/
theorem test_subst : (substBody toy .short { oneTel with synd := 0x84 }).state.shift = 338 ∧
    (substBody toy .short { oneTel with synd := 0x84 }).state.tel = BitVec.twoPow 1023 1019 := by decide +kernel
/-- V-C7. -/
theorem test_subst_long_zero : resultWord (substBody toy .long State.reset).finish = 0x0403 := by decide
/-- V-D12. -/
theorem test_valid : (validBody toy .short { State.reset with tel := BitVec.allOnes 1023 }).finish.ctrlbits = 7 ∧
    (validBody toy .short { State.reset with tel := BitVec.allOnes 1023 }).finish.dwcount = 21 := by decide +kernel
/-- V-E4. -/
theorem test_advance : (advanceBody toy { State.reset with sb := 4095, esb := 1000, esbStep := 1000, first := true }).state.sb = 0 ∧
    (advanceBody toy { State.reset with sb := 4095, esb := 1000, esbStep := 1000, first := true }).state.attempts = 2 := by
  decide
/-- V-E9 and V-E10. -/
theorem test_calpha : alphabetOk toy .long 0 = true ∧ alphabetOk toy .short 1 = true := by decide +kernel
/-- V-E10: offset 1 has a run of 61. -/
theorem test_coffs : longestRun (offSynchBlocks toy .short 0 1) = 61 ∧ (offSynchBlocks toy .short 0 0).length = 62 := by decide +kernel
/-- V-E9: a LONG telegram of zeros at k = 2 has a run of more than 30. -/
theorem test_cunder : longestRun (sampleBlocks toy .long 0 2 0) = 46 := by decide +kernel

/-! ### The encoder's telegram of V-E1 and its decoding (V-D1) -/

/-- V-E1's payload and SB, and the pair its search accepted. -/
def ve1 : State :=
  { withFmt .short with
    sb := 0x123, esb := 177,
    ubuf := (0x0142A13C74264BE38D084B5525DD9C705E682E309567AA7EC4BA7 : BitVec 832) <<< 620 }

/-- T1 of V-D1. -/
def t1 : BitVec 341 := 0x01A8CE1002B02DBCF9F4D5FE1637A3EE268EAAD97EFBA36BABBE896EFE8891962D88496F114688FD33BA5E

/-- The input of V-D1: 86 digits that hold x right-aligned. -/
def pushed (x : BitVec 341) : State := { State.reset with inLen := 86, ibuf := x.setWidth 1024 }

/-- V-U5: SCR after PREP. -/
theorem test_prep : (prepBody toy .short ve1).state.scr = 0x15799570B := by decide +kernel
/-- V-U5: SCR after DESCR of PREP's words. -/
theorem test_descr : slice (descrBody toy .short (prepBody toy .short ve1).state).state.wbuf 0 10 = 0x2C3 := by decide +kernel
/-- V-E1: the telegram. -/
theorem test_assemble : slice ((prepBody toy .short ve1).andThen (assembleBody toy .short)).state.tel 0 341 = t1 := by
  decide +kernel
/-- V-E1: ATTEMPTS and the output, from a start pair two before the accepted one. -/
theorem test_encode : (encodeBody toy .short { ve1 with sbStart := 0x123, esbStart := 176 }).finish.esb = 177 ∧
    slice (encodeBody toy .short { ve1 with sbStart := 0x123, esbStart := 176 }).finish.tbuf 0 341 = t1 := by decide +kernel
/-- V-D1. -/
theorem test_decode : slice (decodeBody toy (pushed t1)).finish.ubuf 0 212 =
    (0x0142A13C74264BE38D084B5525DD9C705E682E309567AA7EC4BA4 : BitVec 212) ∧
    (decodeBody toy (pushed t1)).finish.resultCode = .ok := by decide +kernel
/-- V-D4: one inversion. -/
theorem test_decode_inverted : (decodeBody toy (pushed (~~~t1))).finish.invused = true ∧
    (decodeBody toy (pushed (~~~t1))).finish.sb = 0x123 := by decide +kernel

/-! ### Witnesses: the hypotheses of the statements can be met -/

theorem witness_DecodeOfEncode : Instr.wellFormed (.polyrem .long 2) = true ∧ Instr.wellFormed (.subdec 0x7FF) = true := by decide
theorem witness_EncodeOfDecode : decode 0x34C00000 = .ok (.polyrem .long 2) := by decide

/-- A word in flight whose latency is over. -/
theorem coreDue_inFlight (w : Word) : CoreDue w (inFlight w) := by
  refine ⟨?_, .inl rfl⟩
  have h : w.toNat % 2 ^ 32 = w.toNat := Nat.mod_eq_of_lt w.isLt
  simp only [inFlight, State.withFetchWord, h, BitVec.ofNat_toNat, BitVec.setWidth_eq]

/-- Each kind of reserved encoding, at the ends of its ranges. -/
def reservedWords : List Word :=
  [0x03000000, 0x0F000000, 0x1A000000, 0x1F000000, 0x2A000000, 0x2F000000, 0x35000000, 0xFF000000, 0x00001000, 0x34100000,
   0x00000001, 0x10800000, 0x20400000, 0x30000400, 0x31000800, 0x32200000, 0x33000002, 0x34000001, 0x34600000]

theorem witness_ReservedWordsEndIllegal : ∀ w ∈ reservedWords, CoreDue w (inFlight w) ∧ UsesReserved w := by
  intro w hw
  refine ⟨coreDue_inFlight w, ?_⟩
  unfold UsesReserved unusedBits
  simp only [reservedWords, List.mem_cons, List.not_mem_nil, or_false] at hw
  repeat' (rcases hw with rfl | hw)
  all_goals decide

/-- A used reserved bit of each opcode whose statement names its reserved words. -/
theorem witness_UnusedBitsIllegal : ∀ opc ∈ [0x00, 0x01, 0x02, 0x21, 0x30, 0x31, 0x32, 0x33, 0x34],
    (BitVec.ofNat 32 (opc * 2 ^ 24 + 2 ^ 20)).toNat / 2 ^ 24 = opc ∧
    BitVec.ofNat 32 (opc * 2 ^ 24 + 2 ^ 20) &&& unusedBits opc ≠ 0 := by
  unfold unusedBits
  decide
theorem witness_StepRunsDecodedCommand : CoreDue 0x22000000 (inFlight 0x22000000) ∧ decode 0x22000000 = .ok .advance :=
  ⟨coreDue_inFlight _, by decide⟩
theorem witness_StepServesHostAccess_inside : State.reset.pend = none ∧ 0xFFC % 4 = 0 ∧ 0xFFC < 0x1000 ∧
    ({ State.reset with host := [.read 0xFFC] } : State).host = .read 0xFFC :: [] := by decide
theorem witness_StepServesHostAccess_waiting : ({ inFlight 0 with latency := 1, host := [.write 0 5] } : State).latency ≠ 0 ∧
    ({ inFlight 0 with latency := 1, host := [.write 0 5] } : State).host = .write 0 5 :: [] := by decide
theorem witness_StepServesHostAccess_misaligned : 0x1001 % 4 ≠ 0 ∧
    ({ State.reset with host := [.write 0x1001 1] } : State).host = .write 0x1001 1 :: [] := by decide
theorem witness_StepServesHostAccess_outside : 0x1000 % 4 = 0 ∧ 0x1000 ≤ 0x1000 ∧
    ({ State.reset with host := [.read 0x1000] } : State).host = .read 0x1000 :: [] := by decide
theorem witness_StepServesHostAccess_events : ∀ e ∈ [HostEvent.externalReset, .waitIdle, .waitIrq],
    ({ State.reset with host := [e] } : State).pend = none ∧ ({ State.reset with host := [e] } : State).host = e :: [] := by
  intro e _
  exact ⟨rfl, rfl⟩
theorem witness_IdleBlockKeepsItsState : State.reset.pend = none ∧ State.reset.host = [] := by decide
theorem witness_CommandInFlightEnds : (inFlight 0).busy = true ∧
    ({ inFlight 0 with latency := 2, host := [.write 0x100 1, .read 0x008, .waitIdle] } : State).pend.isSome = true ∧
    hostOk { inFlight 0 with latency := 2, host := [.write 0x100 1, .read 0x008, .waitIdle] } = true := by decide
theorem witness_StepKeepsInvariant : (inFlight 0).Inv ∧ ∃ t, step (inFlight 0) = .next t := by
  refine ⟨⟨⟨rfl, ?_⟩, by unfold State.ResultOk; decide, by unfold State.RangesOk; decide +kernel⟩, _, rfl⟩
  intro w h
  exact ⟨Option.some.inj h, rfl⟩
theorem witness_CommandsKeepHostInputs : (∃ t, exec .clrin State.reset = .next t) ∧ Instr.clrin ≠ .sreset ∧
    (∃ t, exec .nop State.reset = .next t) ∧ Instr.nop ≠ .clrin := ⟨⟨_, rfl⟩, by decide, ⟨_, rfl⟩, by decide⟩
theorem witness_FailureWritesNoOutput : ∃ t, exec .decode { State.reset with outNibs := 53 } = .next t ∧ t.resultCode ≠ .ok :=
  ⟨_, rfl, by decide⟩
/-- A search that has used all its attempts (R193). -/
theorem witness_FailureWritesNoOutput_advance :
    ∃ t, exec .advance { withFmt .short with attempts := 4194304 } = .next t ∧ t.resultCode ≠ .ok := ⟨_, rfl, by decide⟩
theorem witness_AdvanceFindsNextPair : (withFmt .short).attempts.toNat ≤ 4194304 ∧
    ({ withFmt .long with attempts := 4194304 } : State).attempts.toNat ≤ 4194304 := by decide
theorem witness_CunderNeverRejectsShort : (withFmt .short).format = some .short := rfl
theorem witness_PrepDescrFinalRoundTrip : (withFmt .long).format = some .long ∧ (withFmt .short).format = some .short := ⟨rfl, rfl⟩
theorem witness_PolyModIsARemainder : polyMod 0b1011 0b101 = (1, false) ∧ 0b101 ≠ 0 := by decide
/-- x³ + x + 1 = x·(x² + 1) + 1, and an exact multiple. -/
theorem witness_RemainderIsUnique : 0b1011 = clmul 0b10 0b101 ^^^ 1 ∧ Nat.log2 1 < Nat.log2 0b101 ∧ 0b1010 = clmul 0b10 0b101 ^^^ 0 := by
  decide
theorem witness_AssembledTelegramPassesGcheck : ∀ f, toy.WellFormed ∧ 2 ≤ toy.fPoly f ∧ toy.gPoly f ≠ 0 := by
  intro f
  exact ⟨toy_wellFormed, by cases f <;> decide, by cases f <;> decide⟩
theorem witness_BuiltTelegramDecodes_config : ∀ f, (polyMod (toy.gPoly f) (toy.fPoly f)).1 ≠ 0 ∧
    toy.synIdx f (BitVec.ofNat 16 (polyMod (toy.gPoly f) (toy.fPoly f)).1) = some 0 := by
  intro f
  cases f <;> decide +kernel
theorem witness_BuiltTelegramDecodes_input : SelectsFormat .short (pushed t1).inLen ∧ ∀ j < Fmt.N .short,
    bitAt (pushed t1).ibuf (1024 - Fmt.N .short + j) = bitAt (padTo 1023 t1) j := by
  refine ⟨by unfold SelectsFormat; decide, ?_⟩
  decide +kernel
/-- The words of V-E2's payload and its SB and accepted pair. -/
def ve2 : State :=
  { withFmt .long with
    sb := 0x5A5, esb := 516,
    ubuf := 0x0142A13C74264BE38D084B5525DD9C705E682E309567AA7EC4BA70ECCF58DF7A2F1FEC0443616C80294CA3BD144E55E60DA8735F285E3C98686AAED0BD71ACFF64E27AEF4FF80744219C8C2C4D63ED205156A63DB4765FE88E489B692ADEDCC0726D2F70E57BAF7F }
/-- T2 of V-D2. -/
def t2 : BitVec 1023 :=
  0x70B5941726683A2A4ECBE1DCB20018B3F90C309D76E6A3026C5E312B60D6FC251F57F9CA0F82E559D7311CB648318C6D2DBBB6F6717746CAF4D5C5C2D6997CC099F43FE3C08A80D603FB7CFD8D11C020352BE954D8EF50053E8BC6E9A9F91605DF9701E17E121C1205536110556F25CDFFECCAD2C09D24B8FA0302C84792869D
/-- 256 digits that hold x right-aligned. -/
def pushedLong (x : BitVec 1023) : State := { State.reset with inLen := 256, ibuf := x.setWidth 1024 }
/-- V-E2: the telegram. -/
theorem test_assemble_long : slice ((prepBody toy .long ve2).andThen (assembleBody toy .long)).state.tel 0 1023 = t2 := by
  decide +kernel
/-- V-D2, V-D3a and V-D4a: the three inputs of a LONG telegram. -/
theorem witness_LongTelegramDecodes_input : SelectsFormat .long (pushedLong t2).inLen ∧ ∀ j < Fmt.N .long,
    bitAt (pushedLong t2).ibuf (1024 - Fmt.N .long + j) = bitAt t2 j ∧
    bitAt (pushedLong (t2.rotateLeft 5)).ibuf (1024 - Fmt.N .long + j) = bitAt t2 ((j + 5) % Fmt.N .long) ∧
    bitAt (pushedLong (~~~t2)).ibuf (1024 - Fmt.N .long + j) = !bitAt t2 j := by
  refine ⟨by unfold SelectsFormat; decide, ?_⟩
  decide +kernel
/-- TOY's LONG polynomials divide x^1023 + 1 and the word of 1023 ones. -/
theorem witness_LongTelegramDecodes_config :
    clmul 0x132437DAB8FA5A7168C393307D8E6816E84C72705FA151BF51278EF2690CF86C1B2FEF0EC81063CEE7ABAD4EDB2A6240324330BADC6624CE2AC02A18BF5CEEE7682CFB093F6FAACD8D5D2D8F3676B65FEC862523E761219EE29DC25AA538E0FA5D2B51219D421C096354FBD74776573E883F1E75004E3D
      (toy.gPoly .long) = 2 ^ Fmt.N .long ^^^ 1 ∧
    clmul 0x2048832684A87AEB6C0306CC2B5C6FC479EDA0285AA3EF25826451B703C77F218B74356796C8224C0B14ECE2FD45DAC336A0E9E9A9383E737A2ADF09D1D7DA4214AC73FB08D393C37631EFA4A068CBA5A22CD291876F05CAE77733ABBD944D8872F94CCAA7E635E6B4C4B85EAAFF4152F15EEA6E471FF80E1FB89F19F59649
      (toy.fPoly .long) = 2 ^ Fmt.N .long ^^^ 1 ∧
    clmul 0xEE3ED4997A9C9D0D84171102B7A27F2583BD1D03560CF6ACF1D7A51D8FBA824091AA505B80FDEBA5D669B3A4919DE3FEE3EEF964BDDE3BA19BFE6086ACBA5A2D81BA9071525664484CB1B7AEDD26DCAA47DE31EA2DF1F75A18B41C99CE85FA9CB1930E08B3E0BF8DECC56B2C2D232EA78150A2CFFC5EB
      (toy.gPoly .long) = 2 ^ Fmt.N .long - 1 ∧
    clmul 0x1FC7811D839829A6DBFEFDBBE6CBDABC28A49FE7C99EA51C81DC3092FEBD2AE086D3ECDD7247E1C406F3A45E54C349BEED9FA75898E815D129E64AF8B0B2B63E0C642EA907B171412DEF5A9C6027B96361E44E7082DAFCB9A2D2EE996B73C487D1A8C44662A2135D93BC683599AAC0CE50CA59DA3D0AA805F5687508AC8DC7
      (toy.fPoly .long) = 2 ^ Fmt.N .long - 1 ∧
    5 < Fmt.N .long ∧ (polyMod (toy.gPoly .long <<< 5) (toy.fPoly .long)).1 ≠ 0 ∧
    toy.synIdx .long (BitVec.ofNat 16 (polyMod (toy.gPoly .long <<< 5) (toy.fPoly .long)).1) =
      some ((Fmt.N .long - 5) % Fmt.N .long) := by decide +kernel
/-- V-D3: five bits further on. -/
theorem witness_RotatedTelegramDecodes_config : 5 < Fmt.N .short ∧ (polyMod (toy.gPoly .short <<< 5) (toy.fPoly .short)).1 ≠ 0 ∧
    clmul 0x43C18820AB53DF9AD671DCFD6BF46C33A9C113E0F15958C536D1C9938BF97F84E31 (toy.gPoly .short) = 2 ^ Fmt.N .short ^^^ 1 ∧
    clmul 0x81E2AE0E975786A905CDC3D56048EF7DE7A2DEBB3E12BA3DD7E620F9492DAB42B62CE876BD368D72733 (toy.fPoly .short) =
      2 ^ Fmt.N .short ^^^ 1 ∧
    toy.synIdx .short (BitVec.ofNat 16 (polyMod (toy.gPoly .short <<< 5) (toy.fPoly .short)).1) =
      some ((Fmt.N .short - 5) % Fmt.N .short) := by decide +kernel
theorem witness_RotatedTelegramDecodes_input : ∀ j < Fmt.N .short,
    bitAt (pushed (t1.rotateLeft 5)).ibuf (1024 - Fmt.N .short + j) = bitAt (padTo 1023 t1) ((j + 5) % Fmt.N .short) := by
  decide +kernel
theorem witness_InvertedTelegramDecodes_config :
    clmul 0x3EBF781F99314A89B22F4BAB26AC24116740F15FAF3737BCEDB0B88E86A8D57C5EF (toy.gPoly .short) = 2 ^ Fmt.N .short - 1 ∧
    clmul 0x7F5E65FA72CD7D98FCBB414CDFC7A52B5D61B596EA0E69EB4D5DE05738E4993E6DE4582D94ED84D1D11 (toy.fPoly .short) =
      2 ^ Fmt.N .short - 1 := by decide +kernel
theorem witness_InvertedTelegramDecodes_input : ∀ j < Fmt.N .short,
    bitAt (pushed (~~~t1)).ibuf (1024 - Fmt.N .short + j) = !bitAt (padTo 1023 t1) j := by decide +kernel
theorem witness_BufferWordsHoldStringBits : State.reset.busy = false ∧ PortBuf.pbuf ∈ [PortBuf.ubuf, .tel, .wbuf, .pbuf] ∧
    28 < PortBuf.words .pbuf ∧ 31 < PortBuf.words .tel ∧ 0xFFC ≠ PortBuf.offset .pbuf + 4 * 28 := by decide
theorem witness_PushesKeepInputTail : ({ State.reset with inLen := 65530 } : State).busy = false := rfl
theorem witness_CmdWriteHasThreeEffects : State.reset.busy = false ∧ (inFlight 0x10000000).busy = true ∧
    (0x01000000 : Word) ≠ 0x10000000 := by decide
theorem witness_BusyWritesFollowProtocol : (inFlight 0).busy = true ∧ (∀ off ∈ [0x018, 0x030, 0x100, 0x164, 0x300, 0x37C, 0x500,
    0x564, 0x600, 0x670], off % 4 = 0 ∧ off < 0x1000 ∧ GuardedOffset off) ∧
    ∀ off ∈ [0x000, 0x010, 0x01C, 0x034, 0x168, 0x200, 0x4FC, 0x568, 0x674, 0xFFC], off % 4 = 0 ∧ ¬GuardedOffset off := by
  unfold GuardedOffset
  decide
theorem witness_BusyReadsAnswerFourRegisters : (inFlight 0x20000000).busy = true := rfl
/-- The ends of the ranges of read-only and unmapped offsets; the written registers are in none of them. -/
theorem witness_IdlePortReadsAndWrites : State.reset.busy = false ∧
    (∀ off ∈ [0x000, 0x014, 0x01C, 0x034, 0x06C, 0x200, 0x27C, 0x400, 0x47C], ReadOnlyOffset off) ∧
    (∀ off ∈ [0x070, 0x0FC, 0x168, 0x1FC, 0x280, 0x2FC, 0x380, 0x3FC, 0x480, 0x4FC, 0x568, 0x5FC, 0x674, 0xFFC],
      UnmappedOffset off) ∧
    ∀ off ∈ [0x004, 0x008, 0x018, 0x028, 0x02C, 0x030, 0x100, 0x164], ¬ReadOnlyOffset off ∧ ¬UnmappedOffset off := by
  unfold ReadOnlyOffset UnmappedOffset
  decide
/-- R40, R42: reserved bits of a write are ignored. -/
theorem test_idle_register_writes : (memWrite 0x018 0xFFFFFFFD State.reset).format = some .short ∧
    (memWrite 0x028 0xFFFFF123 State.reset).sbStart = 0x123 := by decide
/-- 10_state.md R34, R40 and 60_exceptions.md R241: codes as the port shows them. -/
theorem test_code_images : readLocation (locate 0x014) { State.reset with seq := .undersampling } = 0x18 ∧
    resultWord { State.reset with resultCode := .exhausted, resultStage := .advanceSbEsb } = 0x1205 := by decide

end Sys2Proof.Tests
end

section
/-! PROOFS. The divider of R122 in the ring of polynomials over GF(2). -/

namespace Sys2Proof.Machine

open Polynomial

/-- The polynomial over GF(2) that a number stands for (00_scope.md R15): bit i is the coefficient of x^i. -/
noncomputable def gf2 (a : Nat) : (ZMod 2)[X] := ∑ i ∈ Finset.range (a.log2 + 1), if a.testBit i then X ^ i else 0

-- Elaborated in step, so that the evaluations of the tests above are over before the proofs below start beside them: together they
-- ask for more threads than the check's memory limit holds.
set_option Elab.async false in
/-- gf2 once, as a sum; the proofs use this or the coefficients. -/
theorem gf2_eq_sum (a : Nat) : gf2 a = ∑ i ∈ Finset.range (a.log2 + 1), if a.testBit i then X ^ i else 0 := rfl

theorem coeff_gf2 (a k : Nat) : (gf2 a).coeff k = if a.testBit k then 1 else 0 := by
  simp only [gf2_eq_sum, finsetSum_coeff, apply_ite (coeff · k), coeff_X_pow, coeff_zero]
  rw [Finset.sum_eq_single k (fun b _ hb => by simp [hb.symm]) fun hk => ?_]
  · simp
  · have hlog : a.log2 + 1 ≤ k := by simpa using hk
    simp [Nat.testBit_lt_two_pow (Nat.lt_log2_self.trans_le (Nat.pow_le_pow_right (by decide) hlog))]

theorem gf2_injective : Function.Injective gf2 := by
  intro a b h
  refine Nat.eq_of_testBit_eq fun k => ?_
  have hk := congrArg (fun p => p.coeff k) h
  simp only [coeff_gf2] at hk
  have bit_injective : ∀ x y : Bool, (if x then 1 else 0 : ZMod 2) = (if y then 1 else 0) → x = y := by decide
  exact bit_injective _ _ hk

@[simp] theorem gf2_zero : gf2 0 = 0 := by ext k; simp [coeff_gf2]

theorem gf2_eq_zero_iff {a : Nat} : gf2 a = 0 ↔ a = 0 :=
  ⟨fun h => gf2_injective (h.trans gf2_zero.symm), fun h => by rw [h, gf2_zero]⟩

/-- The sum of polynomials is XOR (R15). -/
theorem gf2_xor (a b : Nat) : gf2 (a ^^^ b) = gf2 a + gf2 b := by
  ext k
  rw [coeff_add, coeff_gf2, coeff_gf2, coeff_gf2, Nat.testBit_xor]
  have bit_xor : ∀ x y : Bool, (if x ^^ y then 1 else 0 : ZMod 2) = (if x then 1 else 0) + if y then 1 else 0 := by decide
  exact bit_xor _ _

theorem gf2_shiftLeft (a k : Nat) : gf2 (a <<< k) = gf2 a * X ^ k := by
  ext n
  rw [coeff_mul_X_pow', coeff_gf2, coeff_gf2, Nat.testBit_shiftLeft]
  by_cases h : k ≤ n <;> simp [h]

theorem gf2_two_pow (n : Nat) : gf2 (2 ^ n) = X ^ n := by
  ext k
  rw [coeff_gf2, coeff_X_pow, Nat.testBit_two_pow]
  simp [eq_comm]

/-- A number cut at bit k: the upper part times x^k, plus the lower part. -/
theorem gf2_split (a k : Nat) : gf2 a = gf2 (a >>> k) * X ^ k + gf2 (a % 2 ^ k) := by
  rw [← gf2_shiftLeft, ← gf2_xor]
  refine congrArg gf2 (Nat.eq_of_testBit_eq fun i => ?_)
  rw [Nat.testBit_xor, Nat.testBit_shiftLeft, Nat.testBit_shiftRight, Nat.testBit_mod_two_pow]
  by_cases hi : i < k
  · simp [hi, Nat.not_le.mpr hi]
  · simp [hi, Nat.not_lt.mp hi, Nat.add_sub_cancel' (Nat.not_lt.mp hi)]

/-- deg(a) < n, in numbers. -/
theorem degree_gf2_lt_iff {a n : Nat} : (gf2 a).degree < n ↔ a < 2 ^ n := by
  rw [degree_lt_iff_coeff_zero]
  constructor
  · intro h
    refine Nat.lt_pow_two_of_testBit a fun k hk => ?_
    simpa [coeff_gf2] using h k hk
  · intro h k hk
    rw [coeff_gf2, Nat.testBit_lt_two_pow (h.trans_le (Nat.pow_le_pow_right (by decide) hk))]
    rfl

theorem degree_gf2 {a : Nat} (h : a ≠ 0) : (gf2 a).degree = a.log2 := by
  refine degree_eq_of_le_of_coeff_ne_zero (Order.le_of_lt_succ ?_) ?_
  · exact degree_gf2_lt_iff.mpr Nat.lt_log2_self
  · simp [coeff_gf2, Nat.testBit_log2 h]

theorem monic_gf2 {a : Nat} (h : a ≠ 0) : (gf2 a).Monic := by
  have one_of_ne_zero : ∀ x : ZMod 2, x ≠ 0 → x = 1 := by decide
  exact one_of_ne_zero _ (leadingCoeff_ne_zero.mpr (mt gf2_eq_zero_iff.mp h))

/-- The carry-less product is the product of polynomials (R15). -/
theorem gf2_clmul (a b : Nat) : gf2 (clmul a b) = gf2 a * gf2 b := by
  have loop (n : Nat) : gf2 ((List.range n).foldl (fun acc i => if a.testBit i then acc ^^^ (b <<< i) else acc) 0) =
      (∑ i ∈ Finset.range n, if a.testBit i then X ^ i else 0) * gf2 b := by
    induction n with
    | zero => simp
    | succ n ih =>
      rw [List.range_succ, List.foldl_append, List.foldl_cons, List.foldl_nil, Finset.sum_range_succ, add_mul, ← ih]
      cases a.testBit n
      · simp
      · simp [gf2_xor, gf2_shiftLeft, mul_comm]
  exact loop _

/-- R122's loop, with turns enough for the dividend: it ends below the divisor's degree, a multiple of the divisor away. -/
theorem polyReduce_spec {p : Nat} (hp : p ≠ 0) (fuel r : Nat) (hr : r < 2 ^ fuel) :
    polyReduce p fuel r < 2 ^ p.log2 ∧ gf2 p ∣ gf2 r - gf2 (polyReduce p fuel r) := by
  induction fuel generalizing r with
  | zero =>
    have : r = 0 := by simpa using hr
    subst this
    simp [polyReduce]
  | succ n ih =>
    rw [polyReduce]
    split
    next h =>
      obtain ⟨hr0, hdeg⟩ := h
      have hshift : gf2 (r ^^^ (p <<< (r.log2 - p.log2))) = gf2 r - gf2 p * X ^ (r.log2 - p.log2) := by
        rw [gf2_xor, gf2_shiftLeft, CharTwo.sub_eq_add]
      have hlt : r ^^^ (p <<< (r.log2 - p.log2)) < 2 ^ r.log2 := by
        rw [← degree_gf2_lt_iff, hshift, ← degree_gf2 hr0]
        refine degree_sub_lt_left ?_ (mt gf2_eq_zero_iff.mp hr0) ?_
        · rw [degree_mul, degree_X_pow, degree_gf2 hp, degree_gf2 hr0]
          exact_mod_cast (Nat.add_sub_cancel' hdeg).symm
        · rw [(monic_gf2 hr0).leadingCoeff, ((monic_gf2 hp).mul (monic_X_pow _)).leadingCoeff]
      obtain ⟨hres, hdvd⟩ := ih _ (hlt.trans_le (Nat.pow_le_pow_right (by decide)
        (Nat.le_of_lt_succ ((Nat.log2_lt hr0).mpr hr))))
      refine ⟨hres, ?_⟩
      rw [hshift] at hdvd
      convert dvd_add hdvd (dvd_mul_right (gf2 p) (X ^ (r.log2 - p.log2))) using 1
      ring
    next h =>
      refine ⟨?_, by simp⟩
      by_cases hr0 : r = 0
      · rw [hr0]
        exact Nat.two_pow_pos _
      · exact (Nat.log2_lt hr0).mp (by omega)

theorem polyMod_zero (a : Nat) : polyMod a 0 = (0, true) := rfl

theorem polyMod_snd (a : Nat) {p : Nat} (hp : p ≠ 0) : (polyMod a p).2 = false := by simp [polyMod, hp]

theorem polyMod_fst_lt (a : Nat) {p : Nat} (hp : p ≠ 0) : (polyMod a p).1 < 2 ^ p.log2 := by
  simpa [polyMod, hp] using (polyReduce_spec hp (a.log2 + 1) a Nat.lt_log2_self).1

/-- PolyMod (R122) is the remainder of polynomials. -/
theorem gf2_polyMod (a : Nat) {p : Nat} (hp : p ≠ 0) : gf2 (polyMod a p).1 = gf2 a %ₘ gf2 p := by
  have hdvd : gf2 p ∣ gf2 a - gf2 (polyMod a p).1 := by
    simpa [polyMod, hp] using (polyReduce_spec hp (a.log2 + 1) a Nat.lt_log2_self).2
  rw [modByMonic_eq_of_dvd_sub (monic_gf2 hp) hdvd, eq_comm, modByMonic_eq_self_iff (monic_gf2 hp), degree_gf2 hp]
  exact degree_gf2_lt_iff.mpr (polyMod_fst_lt a hp)

/-- Dividends that differ by a multiple of the divisor have one remainder. -/
theorem polyMod_congr {a b p : Nat} (h : gf2 p ∣ gf2 a - gf2 b) : polyMod a p = polyMod b p := by
  by_cases hp : p = 0
  · rw [hp, polyMod_zero, polyMod_zero]
  · refine Prod.ext (gf2_injective ?_) (by rw [polyMod_snd a hp, polyMod_snd b hp])
    rw [gf2_polyMod a hp, gf2_polyMod b hp, modByMonic_eq_of_dvd_sub (monic_gf2 hp) h]

theorem polyMod_of_lt {a p : Nat} (hp : p ≠ 0) (h : a < 2 ^ p.log2) : polyMod a p = (a, false) := by
  refine Prod.ext (gf2_injective ?_) (polyMod_snd a hp)
  rw [gf2_polyMod a hp, modByMonic_eq_self_iff (monic_gf2 hp), degree_gf2 hp]
  exact degree_gf2_lt_iff.mpr h

theorem polyMod_of_dvd {a p : Nat} (hp : p ≠ 0) (h : gf2 p ∣ gf2 a) : polyMod a p = (0, false) :=
  (polyMod_congr (by simpa using h)).trans (polyMod_of_lt hp (Nat.two_pow_pos _))

end Sys2Proof.Machine
end

section
/-! PROOFS. A telegram as the polynomial it is divided as (00_scope.md R15, 40_units.md R123): its coefficients, and what a rotation
and the check bits do to it. -/

namespace Sys2Proof.Machine

open Polynomial

theorem Fmt.N_eq (f : Fmt) : f.N = f.P + 110 := by cases f <;> rfl

theorem testBit_telPoly (f : Fmt) (tel : BitVec 1023) (k : Nat) :
    (telPoly f tel).testBit k = (decide (k < f.N) && bitAt tel (f.N - 1 - k)) := by
  rw [telPoly, BitVec.testBit_toNat]
  by_cases hk : k < f.N
  · have hidx : f.N - 1 - (f.N - 1 - k) = k := by omega
    have hlt : f.N - 1 - k < f.N := by omega
    rw [← bitAt_candidate f tel hlt, bitAt_eq_getLsbD, hidx]
    simp [hk, hlt]
  · simp [hk, BitVec.getLsbD_of_ge _ _ (Nat.not_lt.mp hk)]

/-- Settles O24: TEL[0 .. N−1] is a string whose last bit is bit 0 of its number. -/
theorem telegramIsItsPolynomial : Obligations.TelegramIsItsPolynomial := testBit_telPoly

/-- A telegram read r bits further on, as a number: its first r bits have gone from the top to the bottom (R166). -/
theorem telPoly_rotated {f : Fmt} {tel rot : BitVec 1023} {r : Nat} (hr : r < f.N)
    (hrot : ∀ j < f.N, bitAt rot j = bitAt tel ((j + r) % f.N)) :
    telPoly f rot = (telPoly f tel % 2 ^ (f.N - r)) <<< r ^^^ telPoly f tel >>> (f.N - r) := by
  refine Nat.eq_of_testBit_eq fun k => ?_
  rw [Nat.testBit_xor, Nat.testBit_shiftLeft, Nat.testBit_shiftRight, Nat.testBit_mod_two_pow, testBit_telPoly,
    testBit_telPoly, testBit_telPoly]
  by_cases hN : k < f.N
  · rw [hrot _ (by omega)]
    by_cases hk : k < r
    · have hidx : (f.N - 1 - k + r) % f.N = f.N - 1 - (f.N - r + k) := by
        rw [Nat.mod_eq_sub_mod (by omega), Nat.mod_eq_of_lt (by omega)]
        omega
      have hlt : f.N - r + k < f.N := by omega
      simp [hN, hidx, hlt, Nat.not_le.mpr hk]
    · have hidx : (f.N - 1 - k + r) % f.N = f.N - 1 - (k - r) := by
        rw [Nat.mod_eq_of_lt (by omega)]
        omega
      have h1 : ¬f.N - r + k < f.N := by omega
      have h2 : k - r < f.N - r := by omega
      have h3 : k - r < f.N := by omega
      simp [hN, hidx, h1, h2, h3, Nat.not_lt.mp hk]
  · have h1 : ¬f.N - r + k < f.N := by omega
    have h2 : ¬k - r < f.N - r := by omega
    simp [hN, h1, h2]

/-- As polynomials, reading r bits further on is multiplication by x^r modulo x^N + 1 (R166). -/
theorem gf2_telPoly_rotated {f : Fmt} {tel rot : BitVec 1023} {r : Nat} (hr : r < f.N)
    (hrot : ∀ j < f.N, bitAt rot j = bitAt tel ((j + r) % f.N)) :
    (X ^ f.N + 1 : (ZMod 2)[X]) ∣ gf2 (telPoly f rot) - gf2 (telPoly f tel) * X ^ r := by
  have hpow : (X ^ (f.N - r) * X ^ r : (ZMod 2)[X]) = X ^ f.N := by rw [← pow_add, Nat.sub_add_cancel hr.le]
  refine ⟨gf2 (telPoly f tel >>> (f.N - r)), ?_⟩
  rw [telPoly_rotated hr hrot, gf2_split (telPoly f tel) (f.N - r), gf2_xor, gf2_shiftLeft, CharTwo.sub_eq_add, ← hpow]
  linear_combination CharTwo.add_self_eq_zero (gf2 (telPoly f tel % 2 ^ (f.N - r)) * X ^ r)

/-! ### The check bits of ASSEMBLE (42_encode.md R197) -/

/-- The remainder that makes the candidate's own into g: what ASSEMBLE puts into the check region. -/
def checkBits (c : Config) (f : Fmt) (tel : BitVec 1023) : Nat := c.gPoly f ^^^ (polyMod (telPoly f tel) (c.fgPoly f)).1

/-- The candidate with its check bits. -/
def withCheckBits (c : Config) (f : Fmt) (tel : BitVec 1023) : BitVec 1023 :=
  place tel (f.N - 85) (BitVec.ofNat 85 (checkBits c f tel))

theorem checkBits_xor_gPoly (c : Config) (f : Fmt) (tel : BitVec 1023) :
    checkBits c f tel ^^^ c.gPoly f = (polyMod (telPoly f tel) (c.fgPoly f)).1 := by
  change c.gPoly f ^^^ (polyMod (telPoly f tel) (c.fgPoly f)).1 ^^^ c.gPoly f = _
  rw [Nat.xor_comm (c.gPoly f), Nat.xor_assoc, Nat.xor_self, Nat.xor_zero]

theorem gf2_checkBits (c : Config) (f : Fmt) (tel : BitVec 1023) :
    gf2 (checkBits c f tel) = gf2 (c.gPoly f) + gf2 (polyMod (telPoly f tel) (c.fgPoly f)).1 := gf2_xor _ _

/-- The check bits take the last 85 places, the coefficient of x^84 first (R197). -/
theorem bitAt_withCheckBits (c : Config) (f : Fmt) (tel : BitVec 1023) (i : Nat) :
    bitAt (withCheckBits c f tel) i =
      if f.P + 25 ≤ i ∧ i < f.N then (checkBits c f tel).testBit (f.N - 1 - i) else bitAt tel i := by
  have hN := Fmt.N_eq f
  have hfit := (Fmt.words_fit f).2.2.2.2
  refine (bitAt_place tel (BitVec.ofNat 85 (checkBits c f tel)) (by omega) i).trans ?_
  by_cases hi : f.P + 25 ≤ i ∧ i < f.N
  · have hidx : 85 - 1 - (i - (f.N - 85)) = f.N - 1 - i := by omega
    have hlt : i - (f.N - 85) < 85 := by omega
    have hbit : f.N - 1 - i < 85 := by omega
    rw [if_pos (by omega), if_pos hi, bitAt_eq_getLsbD, hidx, BitVec.getLsbD_ofNat]
    simp [hlt, hbit]
  · rw [if_neg (by omega), if_neg hi]

/-- ASSEMBLE accepts when fg is not 0 and the check bits fit their region. -/
theorem assembleBody_eq_ok (c : Config) (f : Fmt) (s : State) (hfg : c.fgPoly f ≠ 0)
    (hfit : checkBits c f (assembled f s.pbuf s.sb s.esb) < 2 ^ 85) :
    assembleBody c f s = .ok (setCond condSelfCheck true { enter .assemble s with
      tel := withCheckBits c f (assembled f s.pbuf s.sb s.esb),
      rem := BitVec.ofNat 96 (polyMod (telPoly f (assembled f s.pbuf s.sb s.esb)) (c.fgPoly f)).1 }) := by
  have hself := checkBits_xor_gPoly c f (assembled f s.pbuf s.sb s.esb)
  have hmod := Nat.mod_eq_of_lt hfit
  change (c.gPoly f ^^^ _) % 2 ^ 85 = c.gPoly f ^^^ _ at hmod
  change (c.gPoly f ^^^ _) ^^^ c.gPoly f = _ at hself
  simp only [assembleBody, polyMod_snd _ hfg, Bool.false_eq_true, if_false, hmod, hself, ne_eq, not_true_eq_false]
  rfl

/-- Check bits that fit are added to a candidate whose check region is zero: the sum has remainder g by fg (R196). -/
theorem telPoly_withCheckBits (c : Config) (f : Fmt) (tel : BitVec 1023) (hfg : c.fgPoly f ≠ 0)
    (hfit : checkBits c f tel < 2 ^ 85) (hzero : ∀ i, f.P + 25 ≤ i → bitAt tel i = false) :
    gf2 (c.fgPoly f) ∣ gf2 (telPoly f (withCheckBits c f tel)) - gf2 (c.gPoly f) := by
  have hN := Fmt.N_eq f
  have hsum : telPoly f (withCheckBits c f tel) = telPoly f tel ^^^ checkBits c f tel := by
    refine Nat.eq_of_testBit_eq fun k => ?_
    rw [Nat.testBit_xor, testBit_telPoly, testBit_telPoly]
    by_cases hk : k < f.N
    · rw [bitAt_withCheckBits]
      by_cases hcheck : k < 85
      · have hidx : f.N - 1 - (f.N - 1 - k) = k := by omega
        rw [if_pos (by omega), hzero _ (by omega), hidx]
        simp [hk]
      · have hbit : (checkBits c f tel).testBit k = false :=
          Nat.testBit_lt_two_pow (hfit.trans_le (Nat.pow_le_pow_right (by decide) (Nat.not_lt.mp hcheck)))
        rw [if_neg (by omega), hbit, Bool.xor_false]
    · have hbit : (checkBits c f tel).testBit k = false :=
        Nat.testBit_lt_two_pow (hfit.trans_le (Nat.pow_le_pow_right (by decide) (by omega)))
      simp [hk, hbit]
  have hrem : gf2 (c.fgPoly f) ∣ gf2 (telPoly f tel) - gf2 (polyMod (telPoly f tel) (c.fgPoly f)).1 := by
    rw [gf2_polyMod _ hfg]
    exact ⟨_, sub_eq_of_eq_add' (modByMonic_add_div _ _).symm⟩
  rw [hsum, gf2_xor, gf2_checkBits]
  convert hrem using 1
  rw [CharTwo.sub_eq_add, CharTwo.sub_eq_add]
  linear_combination CharTwo.add_self_eq_zero (gf2 (c.gPoly f))

/-- The degrees of a well-formed configuration with deg f ≥ 1 and g ≠ 0: deg g < deg fg ≤ 85. -/
theorem wellFormed_degrees {c : Config} (wf : c.WellFormed) {f : Fmt} (hf : 2 ≤ c.fPoly f) (hg : c.gPoly f ≠ 0) :
    c.fgPoly f ≠ 0 ∧ (c.gPoly f).log2 < (c.fgPoly f).log2 ∧ (c.fgPoly f).log2 ≤ 85 := by
  have hf0 : c.fPoly f ≠ 0 := by omega
  have hprod : gf2 (c.fgPoly f) = gf2 (c.fPoly f) * gf2 (c.gPoly f) := by rw [wf.product, gf2_clmul]
  have hfg : c.fgPoly f ≠ 0 := by
    rw [Ne, ← gf2_eq_zero_iff, hprod]
    exact mul_ne_zero (mt gf2_eq_zero_iff.mp hf0) (mt gf2_eq_zero_iff.mp hg)
  have hdeg : (c.fgPoly f).log2 = (c.fPoly f).log2 + (c.gPoly f).log2 := by
    have h := congrArg degree hprod
    rw [degree_mul, degree_gf2 hfg, degree_gf2 hf0, degree_gf2 hg] at h
    exact_mod_cast h
  have hf1 : 1 ≤ (c.fPoly f).log2 := (Nat.le_log2 hf0).mpr hf
  have hbound : (c.fgPoly f).log2 < 86 := (Nat.log2_lt hfg).mpr (wf.fgDegree f)
  exact ⟨hfg, by omega, by omega⟩

/-- So the check bits always fit (R197's remark). -/
theorem wellFormed_checkBits_lt {c : Config} (wf : c.WellFormed) {f : Fmt} (hf : 2 ≤ c.fPoly f) (hg : c.gPoly f ≠ 0)
    (tel : BitVec 1023) : checkBits c f tel < 2 ^ 85 := by
  obtain ⟨hfg, hdeg, hbound⟩ := wellFormed_degrees wf hf hg
  refine Nat.xor_lt_two_pow ((Nat.log2_lt hg).mp (by omega)) ?_
  exact (polyMod_fst_lt _ hfg).trans_le (Nat.pow_le_pow_right (by decide) hbound)

end Sys2Proof.Machine
end

section
/-! PROOFS. From the payload to the built telegram and back (95 S1): the checksum (42_encode.md R195), the scrambler (40_units.md
R132), the substitution code (R126) and the header (R121) are each undone. -/

namespace Sys2Proof.Machine

open Claims

theorem bitAt_zero_padded {n w m : Nat} (x : BitVec n) (hm : m ≤ n) (hw : m ≤ w) (i : Nat) :
    bitAt (padTo w (slice x 0 m)) i = if i < m then bitAt x i else false := by
  rw [bitAt_padTo _ hw]
  by_cases hi : i < m
  · rw [if_pos hi, bitAt_slice _ hi (by omega), Nat.zero_add]
  · rw [if_neg hi, bitAt_of_le _ (Nat.not_lt.mp hi)]

/-! ### The scrambler -/

/-- The feedback bit is a bit that both directions see (R132). -/
theorem feedbackBit_dec (fb : Feedback) (x o : Bool) :
    feedbackBit fb .dec (x ^^ o) ((x ^^ o) ^^ o) = feedbackBit fb .enc x (x ^^ o) := by
  cases fb <;> simp [feedbackBit]

/-- Descrambling what was scrambled runs through the same states. -/
theorem scrambleState_dec_eq_enc (c : Config) (w w' : BitVec 830) (g : BitVec 33) (n : Nat)
    (hw : ∀ i < n, bitAt w' i = (bitAt w i ^^ scramblerOut (scrambleState c .enc w g i))) :
    scrambleState c .dec w' g n = scrambleState c .enc w g n := by
  induction n with
  | zero => rfl
  | succ n ih =>
    have hstate := ih fun i hi => hw i (by omega)
    simp only [scrambleState, hstate, hw n (by omega), feedbackBit_dec]

theorem scramble_dec_enc (c : Config) (f : Fmt) (sb : BitVec 12) (w : BitVec 830) :
    (scramble c f sb .dec (scramble c f sb .enc w).2).2 = padTo 830 (slice w 0 f.M) := by
  have hM : f.M ≤ 830 := by cases f <;> decide
  obtain ⟨-, henc⟩ := scramble_spec c f sb .enc w
  obtain ⟨-, hdec⟩ := scramble_spec c f sb .dec (scramble c f sb .enc w).2
  refine eq_of_bitAt fun i _ => ?_
  rw [hdec, bitAt_zero_padded w hM hM]
  by_cases hi : i < f.M
  · have hstate := scrambleState_dec_eq_enc c (padTo 830 (slice w 0 f.M))
      (padTo 830 (slice (scramble c f sb .enc w).2 0 f.M)) (seedState c f sb) i fun j hj => by
        have hjM : j < f.M := by omega
        rw [bitAt_zero_padded _ hM hM, bitAt_zero_padded _ hM hM, if_pos hjM, if_pos hjM, henc, if_pos hjM]
    rw [if_pos hi, if_pos hi, hstate, henc, if_pos hi, Bool.xor_assoc, Bool.xor_self, Bool.xor_false]
  · rw [if_neg hi, if_neg hi]

/-! ### The checksum -/

theorem bitAt_checksummed (f : Fmt) (u : BitVec 832) {i : Nat} (hi : 10 ≤ i) :
    bitAt (checksummed f u) i = if i < f.M then bitAt u i else false := by
  have hM : f.M ≤ 830 := by cases f <;> decide
  rw [checksummed, bitAt_place _ _ (by omega), if_neg (by omega), bitAt_zero_padded u (by omega) hM]

theorem padTo_slice_checksummed (f : Fmt) (u : BitVec 832) :
    padTo 830 (slice (checksummed f u) 0 f.M) = checksummed f u := by
  have hM : 10 ≤ f.M ∧ f.M ≤ 830 := by cases f <;> decide
  refine eq_of_bitAt fun i _ => ?_
  rw [bitAt_zero_padded _ hM.2 hM.2]
  by_cases hi : i < f.M
  · rw [if_pos hi]
  · rw [if_neg hi, bitAt_checksummed f u (by omega), if_neg hi]

/-- The sum of the payload's words without the first (R174). -/
def otherWords (f : Fmt) (w : BitVec 830) : Nat := ((List.range (f.K - 1)).map fun j => wordAt w (j + 1)).sum

theorem sum_words (f : Fmt) (w : BitVec 830) :
    ((List.range f.K).map (wordAt w)).sum = wordAt w 0 + otherWords f w := by
  have hK : f.K = (f.K - 1) + 1 := by cases f <;> rfl
  rw [hK, List.range_succ_eq_map, List.map_cons, List.sum_cons, List.map_map]
  rfl

theorem wordAt_lt (w : BitVec 830) (j : Nat) : wordAt w j < 1024 := BitVec.isLt _

theorem wordAt_checksummed_zero (f : Fmt) (u : BitVec 832) :
    wordAt (checksummed f u) 0 =
      (wordAt (padTo 830 (slice u 0 f.M)) 0 + otherWords f (padTo 830 (slice u 0 f.M))) % 1024 := by
  rw [wordAt, checksummed, Nat.mul_zero, slice_place_same _ _ (by decide), sum_words, BitVec.toNat_ofNat, Nat.mod_mod]

theorem otherWords_checksummed (f : Fmt) (u : BitVec 832) :
    otherWords f (checksummed f u) = otherWords f (padTo 830 (slice u 0 f.M)) := by
  have hK : f.K ≤ 83 := by cases f <;> decide
  refine congrArg List.sum (List.map_congr_left fun j hj => ?_)
  have hjK := List.mem_range.mp hj
  rw [wordAt, wordAt, checksummed, slice_place_disjoint _ _ (by decide) (by omega) (by omega)]

/-- FINAL's first word is the one the checksum replaced (R174, R195). -/
theorem uncheckedFirst_checksummed (f : Fmt) (u : BitVec 832) :
    uncheckedFirst f (checksummed f u) = wordAt (padTo 830 (slice u 0 f.M)) 0 := by
  have hfirst := wordAt_checksummed_zero f u
  have hlt := wordAt_lt (padTo 830 (slice u 0 f.M)) 0
  have hother : ((List.range (f.K - 1)).map fun j => wordAt (checksummed f u) (j + 1)).sum =
      otherWords f (padTo 830 (slice u 0 f.M)) := otherWords_checksummed f u
  rw [uncheckedFirst, hother, hfirst]
  split <;> omega

theorem final_checksummed (f : Fmt) (u : BitVec 832) :
    place (padTo 832 (slice (checksummed f u) 0 f.M)) 0 (BitVec.ofNat 10 (uncheckedFirst f (checksummed f u))) =
      padTo 832 (slice u 0 f.M) := by
  have hM : 10 ≤ f.M ∧ f.M ≤ 830 := by cases f <;> decide
  refine eq_of_bitAt fun i _ => ?_
  rw [uncheckedFirst_checksummed, wordAt, BitVec.ofNat_toNat, BitVec.setWidth_eq, bitAt_place _ _ (by decide),
    bitAt_zero_padded u (by omega) (by omega)]
  by_cases hi : i < 10
  · rw [if_pos (by omega), bitAt_slice _ (by omega) (by decide), bitAt_zero_padded u (by omega) hM.2]
    simp
  · rw [if_neg (by omega), bitAt_zero_padded _ hM.2 (by omega), bitAt_checksummed f u (by omega)]
    by_cases hiM : i < f.M
    · rw [if_pos hiM]
    · rw [if_neg hiM, if_neg hiM]

/-! ### The built telegram -/

/-- The words PREP leaves: checksummed and scrambled (42_encode.md R194). -/
def preparedWords (c : Config) (f : Fmt) (s : State) : BitVec 830 := (scramble c f s.sb .enc (checksummed f s.ubuf)).2

theorem bitAt_preparedWords_of_le (c : Config) (f : Fmt) (s : State) {i : Nat} (hi : f.M ≤ i) :
    bitAt (preparedWords c f s) i = false :=
  ((scramble_spec c f s.sb .enc (checksummed f s.ubuf)).2 i).trans (if_neg (Nat.not_lt.mpr hi))

/-- Descrambling them gives the checksummed payload. -/
theorem scramble_preparedWords (c : Config) (f : Fmt) (s : State) :
    (scramble c f s.sb .dec (preparedWords c f s)).2 = checksummed f s.ubuf :=
  (scramble_dec_enc c f s.sb (checksummed f s.ubuf)).trans (padTo_slice_checksummed f s.ubuf)

/-- The telegram the encoder builds from a payload and a pair: PREP, then ASSEMBLE. -/
def builtTelegram (c : Config) (f : Fmt) (s : State) : BitVec 1023 :=
  withCheckBits c f (assembled f (expand c f (preparedWords c f s)) s.sb s.esb)

theorem builds_builtTelegram {c : Config} (wf : c.WellFormed) {f : Fmt} (hf : 2 ≤ c.fPoly f) (hg : c.gPoly f ≠ 0) (s : State) :
    ∃ t, Builds c f s t ∧ t.tel = builtTelegram c f s :=
  ⟨_, assembleBody_eq_ok c f _ (wellFormed_degrees wf hf hg).1 (wellFormed_checkBits_lt wf hf hg _), rfl⟩

/-- Its remainder by fg is g (R196). -/
theorem builtTelegram_congr_gPoly {c : Config} (wf : c.WellFormed) {f : Fmt} (hf : 2 ≤ c.fPoly f) (hg : c.gPoly f ≠ 0)
    (s : State) : gf2 (c.fgPoly f) ∣ gf2 (telPoly f (builtTelegram c f s)) - gf2 (c.gPoly f) := by
  refine telPoly_withCheckBits c f _ (wellFormed_degrees wf hf hg).1 (wellFormed_checkBits_lt wf hf hg _) fun i hi => ?_
  rw [bitAt_assembled, if_neg (by omega), if_neg (by omega)]

/-- Outside its check bits it is ASSEMBLE's first candidate. -/
theorem bitAt_builtTelegram (c : Config) (f : Fmt) (s : State) {i : Nat} (hi : i < f.P + 25 ∨ f.N ≤ i) :
    bitAt (builtTelegram c f s) i = if i < f.P then bitAt (expand c f (preparedWords c f s)) i
      else if i < f.P + 25 then bitAt (hdr s.sb s.esb) (i - f.P) else false :=
  (bitAt_withCheckBits c f _ i).trans ((if_neg (by omega)).trans (bitAt_assembled f _ _ _ i))

theorem bitAt_builtTelegram_of_le (c : Config) (f : Fmt) (s : State) {i : Nat} (hi : f.N ≤ i) :
    bitAt (builtTelegram c f s) i = false := by
  have hN := Fmt.N_eq f
  rw [bitAt_builtTelegram c f s (.inr hi), if_neg (by omega), if_neg (by omega)]

/-- Its block j is the codeword of word j. -/
theorem builtTelegram_block (c : Config) (f : Fmt) (s : State) {j : Nat} (hj : j < f.K) :
    slice (builtTelegram c f s) (11 * j) 11 = c.subEnc (slice (preparedWords c f s) (10 * j) 10) := by
  have hP : f.P = 11 * f.K ∧ f.P ≤ 913 := by cases f <;> decide
  rw [← expand_block c f _ hj]
  refine eq_of_bitAt fun i hi => ?_
  rw [bitAt_slice _ hi (by omega), bitAt_slice _ hi (by omega), bitAt_builtTelegram c f s (by omega), if_pos (by omega)]

/-- Behind the payload stands the header. -/
theorem builtTelegram_header (c : Config) (f : Fmt) (s : State) {a len : Nat} (h : a + len ≤ 25) :
    slice (builtTelegram c f s) (f.P + a) len = slice (hdr s.sb s.esb) a len := by
  have hP : f.P ≤ 913 := by cases f <;> decide
  refine eq_of_bitAt fun i hi => ?_
  have hidx : f.P + a + i - f.P = a + i := by omega
  rw [bitAt_slice _ hi (by omega), bitAt_slice _ hi h, bitAt_builtTelegram c f s (by omega), if_neg (by omega),
    if_pos (by omega), hidx]

theorem hdr_fixedBits (sb : BitVec 12) (esb : BitVec 10) : slice (hdr sb esb) 0 3 = 1 := by
  refine eq_of_bitAt fun i hi => ?_
  rw [bitAt_slice _ hi (by decide), hdr, bitAt_append, if_pos (by omega), bitAt_append, if_pos (by omega), Nat.zero_add]

theorem hdr_sb (sb : BitVec 12) (esb : BitVec 10) : slice (hdr sb esb) 3 12 = sb := by
  refine eq_of_bitAt fun i hi => ?_
  rw [bitAt_slice _ hi (by decide), hdr, bitAt_append, if_pos (by omega), bitAt_append, if_neg (by omega),
    Nat.add_sub_cancel_left]

theorem builtTelegram_fixedBit (c : Config) (f : Fmt) (s : State) {i : Nat} (hi : i < 3) :
    bitAt (builtTelegram c f s) (f.P + i) = bitAt (1 : BitVec 3) i := by
  have hP : f.P ≤ 913 := by cases f <;> decide
  rw [← hdr_fixedBits s.sb s.esb, ← builtTelegram_header c f s (by decide), bitAt_slice _ hi (by omega), Nat.add_zero]

theorem inversionBit_builtTelegram (c : Config) (f : Fmt) (s : State) : inversionBit f (builtTelegram c f s) = false := by
  have hidx : f.N - 110 = f.P + 0 := by have := Fmt.N_eq f; omega
  rw [inversionBit, hidx, builtTelegram_fixedBit c f s (by decide)]
  rfl

theorem controlBits_builtTelegram (c : Config) (f : Fmt) (s : State) : controlBits f (builtTelegram c f s) = 1 := by
  have hidx : f.N - 109 = f.P + 1 := by have := Fmt.N_eq f; omega
  have hP : f.P ≤ 913 := by cases f <;> decide
  refine eq_of_bitAt fun i hi => ?_
  rw [controlBits, hidx, bitAt_slice _ hi (by omega), Nat.add_assoc, builtTelegram_fixedBit c f s (by omega)]
  interval_cases i <;> rfl

theorem sbField_builtTelegram (c : Config) (f : Fmt) (s : State) :
    slice (builtTelegram c f s) (f.N - 107) 12 = s.sb := by
  have hidx : f.N - 107 = f.P + 3 := by have := Fmt.N_eq f; omega
  rw [hidx, builtTelegram_header c f s (by decide), hdr_sb]

theorem contractCount_builtTelegram {c : Config} (wf : c.WellFormed) (f : Fmt) (s : State) :
    contractCount c f (builtTelegram c f s) = f.K := by
  have hall : ∀ j ∈ List.range f.K, validWord c (slice (builtTelegram c f s) (11 * j) 11) = true := fun j hj => by
    rw [validWord, builtTelegram_block c f s (List.mem_range.mp hj), wf.decEnc]
    rfl
  rw [contractCount, List.countP_eq_length.mpr hall, List.length_range]

/-- Contract of the built telegram gives PREP's words back (R126). -/
theorem contract_builtTelegram {c : Config} (wf : c.WellFormed) (f : Fmt) (s : State) :
    contract c f (builtTelegram c f s) = preparedWords c f s := by
  obtain ⟨hfit, -, hM, -⟩ := Fmt.words_fit f
  refine eq_of_bitAt fun i _ => ?_
  by_cases hi : i < 10 * f.K
  · have hword : slice (contract c f (builtTelegram c f s)) (10 * (i / 10)) 10 =
        slice (preparedWords c f s) (10 * (i / 10)) 10 := by
      rw [contract_word c f _ (by omega), contractLane, builtTelegram_block c f s (by omega), wf.decEnc]
      rfl
    have hbit := congrArg (bitAt · (i % 10)) hword
    simpa only [bitAt_slice _ (Nat.mod_lt i (by decide : 10 > 0)) (by omega : 10 * (i / 10) + 10 ≤ 830), Nat.div_add_mod]
      using hbit
  · rw [contract_tail c f _ (Nat.not_lt.mp hi), bitAt_preparedWords_of_le c f s (by omega)]

end Sys2Proof.Machine
end

section
/-! PROOFS. DECODE (41_decode.md R160) step by step: what each step leaves when it does not raise, and what the whole does with a
telegram read from any bit on. -/

namespace Sys2Proof.Machine

open Claims Polynomial

/-! ### The steps that go on -/

theorem detectBody_of_selectsFormat {f : Fmt} {s : State} (h : SelectsFormat f s.inLen) :
    detectBody s = .ok { enter .detectFormat s with format := some f } := by
  have hlen : ¬s.inLen < 86 := by cases f <;> simp only [SelectsFormat] at h <;> bv_omega
  have hfmt : detectedFormat s.inLen = some f := by
    cases f with
    | short =>
      have : s.inLen ≤ 255 := by simp only [SelectsFormat] at h; bv_omega
      rw [detectedFormat, if_neg hlen, if_pos this]
    | long =>
      have : ¬s.inLen ≤ 255 := by simp only [SelectsFormat] at h; bv_omega
      rw [detectedFormat, if_neg hlen, if_neg this]
  rw [detectBody, if_neg hlen, hfmt]

/-- The window DECODE looks at (R162): the last N input bits. -/
def tailWindow (f : Fmt) (ibuf : BitVec 1024) : BitVec 1023 := padTo 1023 (slice ibuf (1024 - f.N) f.N)

theorem bitAt_tailWindow (f : Fmt) (ibuf : BitVec 1024) {j : Nat} (hj : j < f.N) :
    bitAt (tailWindow f ibuf) j = bitAt ibuf (1024 - f.N + j) := by
  have hN := (Fmt.words_fit f).2.2.2.2
  exact (bitAt_padTo _ hN j).trans (bitAt_slice _ hj (by omega))

theorem windowBody_eq_ok (f : Fmt) (s : State) :
    windowBody f s = .ok { enter .slideWindow s with tel := tailWindow f s.ibuf } := rfl

theorem gcheckBody_eq_ok {c : Config} {f : Fmt} {s : State} (h : polyMod (telPoly f s.tel) (c.gPoly f) = (0, false)) :
    gcheckBody c f s = .ok { enter .checkSyndrome s with rem := 0 } := by
  simp [gcheckBody, h]

theorem fsyndBody_eq_ok {c : Config} {f : Fmt} {s : State} {y : Nat} (h : polyMod (telPoly f s.tel) (c.fPoly f) = (y, false)) :
    fsyndBody c f s = .ok { enter .checkSyndrome s with synd := BitVec.ofNat 16 y } := by
  simp [fsyndBody, h]

theorem substBody_eq_ok {c : Config} {f : Fmt} {s : State} {e : Nat} (hlong : f = .long → s.synd ≠ 0)
    (hidx : c.synIdx f s.synd = some e) (he : e < f.N) :
    substBody c f s = .ok { enter .substitute s with shift := BitVec.ofNat 11 e, tel := realign f s.tel e } := by
  have hnot : ¬(f = .long ∧ s.synd = 0) := fun ⟨hf, hs⟩ => hlong hf hs
  simp only [substBody, if_neg hnot, hidx, if_neg (Nat.not_le.mpr he)]

/-- The built telegram passes VALID, which gives its words and SB back (R168). -/
theorem validBody_builtTelegram {c : Config} (wf : c.WellFormed) {f : Fmt} {s u : State} (hu : u.tel = builtTelegram c f s) :
    validBody c f u = .ok { enter .validateControl u with
      ctrlbits := 2, sb := s.sb, wbuf := preparedWords c f s, dwcount := BitVec.ofNat 7 f.K } := by
  simp [validBody, hu, contractCount_builtTelegram wf, inversionBit_builtTelegram, controlBits_builtTelegram,
    contract_builtTelegram wf, sbField_builtTelegram]

/-! ### From VALID on -/

/-- DECODE from VALID on (R160): VALID with its retry, DESCR, FINAL. -/
def payloadSteps (c : Config) (f : Fmt) (s : State) : BodyResult :=
  (validWithRetry c f s).andThen fun s => (descrBody c f s).andThen (finalBody f)

/-- DESCR and FINAL turn the words PREP left into the payload with a zero trailer (95 S1). -/
theorem descr_final_preparedWords {c : Config} {f : Fmt} {s u : State} (hsb : u.sb = s.sb) (hw : u.wbuf = preparedWords c f s) :
    ∃ v, (descrBody c f u).andThen (finalBody f) = .ok v ∧ v.ubuf = padTo 832 (slice s.ubuf 0 f.M) ∧
      v.outNibs = BitVec.ofNat 9 f.UN ∧ v.sb = u.sb ∧ v.tel = u.tel ∧ v.shift = u.shift ∧ v.invused = u.invused := by
  refine ⟨_, rfl, ?_, rfl, rfl, rfl, rfl, rfl⟩
  have hwords : (scramble c f u.sb .dec u.wbuf).2 = checksummed f s.ubuf := by
    rw [hsb, hw, scramble_preparedWords]
  change place (padTo 832 (slice (scramble c f u.sb .dec u.wbuf).2 0 f.M)) 0
    (BitVec.ofNat 10 (uncheckedFirst f (scramble c f u.sb .dec u.wbuf).2)) = _
  rw [hwords, final_checksummed]

theorem payloadSteps_builtTelegram {c : Config} (wf : c.WellFormed) {f : Fmt} {s t u : State}
    (ht : t.tel = builtTelegram c f s) (hu : u.tel = builtTelegram c f s) :
    ∃ v, payloadSteps c f u = .ok v ∧ DecodedAs f s t v u.shift.toNat u.invused := by
  obtain ⟨v, hv, hubuf, hnibs, hsb, htel, hshift, hinv⟩ := descr_final_preparedWords (c := c) (f := f) (s := s)
    (u := { enter .validateControl u with
      ctrlbits := 2, sb := s.sb, wbuf := preparedWords c f s, dwcount := BitVec.ofNat 7 f.K }) rfl rfl
  refine ⟨v, ?_, ?_⟩
  · change (validWithRetry c f u).andThen _ = _
    rw [validWithRetry, validBody_builtTelegram wf hu, catching_ok, andThen_ok, hv]
  · have hbit := bitAt_zero_padded (n := 832) (w := 832) (m := f.M) s.ubuf (by cases f <;> decide) (by cases f <;> decide)
    refine ⟨fun i hi => ?_, fun i hi => ?_, ?_, hsb, htel.trans (hu.trans ht.symm), congrArg _ hshift, hinv⟩
    · rw [hubuf, hbit, if_pos hi]
    · rw [hubuf, hbit, if_neg (Nat.not_lt.mpr hi)]
    · rw [hnibs]
      cases f <;> rfl

/-! ### From the input to SUBST -/

/-- A window that g divides, with a syndrome that has a shift: DECODE realigns it and goes on with VALID. -/
theorem decodeBody_of_syndrome {c : Config} {f : Fmt} {d : State} {y e : Nat} (hlen : SelectsFormat f d.inLen)
    (hgcheck : polyMod (telPoly f (tailWindow f d.ibuf)) (c.gPoly f) = (0, false))
    (hfsynd : polyMod (telPoly f (tailWindow f d.ibuf)) (c.fPoly f) = (y, false))
    (hlong : f = .long → BitVec.ofNat 16 y ≠ 0) (hidx : c.synIdx f (BitVec.ofNat 16 y) = some e) (he : e < f.N) :
    ∃ u, decodeBody c d = payloadSteps c f u ∧ u.tel = realign f (tailWindow f d.ibuf) e ∧ u.shift.toNat = e ∧
      u.invused = false := by
  have hshift : (BitVec.ofNat 11 e).toNat = e := by
    have := (Fmt.words_fit f).2.2.2.2
    rw [BitVec.toNat_ofNat, Nat.mod_eq_of_lt (by omega)]
  have hdetect := detectBody_of_selectsFormat (s := { d with outNibs := 0, invused := false }) hlen
  rw [decodeBody, hdetect, andThen_ok, withFormat_some rfl, decodeRest, windowBody_eq_ok, andThen_ok, gcheckBody_eq_ok,
    andThen_ok, fsyndBody_eq_ok (y := y), andThen_ok, substBody_eq_ok (e := e), andThen_ok]
  · exact ⟨_, rfl, rfl, hshift, rfl⟩
  exacts [hlong, hidx, he, hfsynd, hgcheck]

/-! ### A telegram read from r bits further on -/

/-- Under the cyclic property of R11 a divisor of fg leaves of the rotated telegram what it leaves of x^r·g (R166). -/
theorem polyMod_rotated {c : Config} (wf : c.WellFormed) {f : Fmt} (hf : 2 ≤ c.fPoly f) (hg : c.gPoly f ≠ 0) (s : State)
    {rot : BitVec 1023} {r p q : Nat} (hr : r < f.N)
    (hrot : ∀ j < f.N, bitAt rot j = bitAt (builtTelegram c f s) ((j + r) % f.N))
    (hp : gf2 p ∣ gf2 (c.fgPoly f)) (hcyc : clmul q p = 2 ^ f.N ^^^ 1) :
    polyMod (telPoly f rot) p = polyMod (c.gPoly f <<< r) p := by
  have hone : gf2 1 = 1 := gf2_two_pow 0
  have hN : gf2 p ∣ (X ^ f.N + 1 : (ZMod 2)[X]) := by
    refine ⟨gf2 q, ?_⟩
    rw [mul_comm, ← gf2_clmul, hcyc, gf2_xor, gf2_two_pow, hone]
  have hread := hN.trans (gf2_telPoly_rotated hr hrot)
  have hbuilt := (hp.trans (builtTelegram_congr_gPoly wf hf hg s)).mul_right (X ^ r)
  refine polyMod_congr ?_
  rw [gf2_shiftLeft]
  have hsum := dvd_add hread hbuilt
  rwa [sub_mul, sub_add_sub_cancel] at hsum

/-- Realigning by what is left of the turn undoes the rotation (R166). -/
theorem realign_rotated {f : Fmt} {tel rot : BitVec 1023} {r : Nat} (hr : r < f.N)
    (hrot : ∀ j < f.N, bitAt rot j = bitAt tel ((j + r) % f.N)) (htail : ∀ i, f.N ≤ i → bitAt tel i = false) :
    realign f rot ((f.N - r) % f.N) = tel := by
  refine eq_of_bitAt fun i _ => ?_
  rw [bitAt_realign]
  by_cases hi : i < f.N
  · have hidx : ((i + (f.N - r) % f.N) % f.N + r) % f.N = i := by
      rw [Nat.mod_add_mod, Nat.add_right_comm, Nat.add_mod_mod, Nat.add_assoc, Nat.add_sub_cancel' hr.le, Nat.add_mod_right,
        Nat.mod_eq_of_lt hi]
    rw [if_pos hi, hrot _ (Nat.mod_lt _ (by omega)), hidx]
  · rw [if_neg hi, htail i (Nat.not_lt.mp hi)]

/-- A syndrome fits SYND: it is 0 there only when it is 0 (10_state.md R46). -/
theorem syndrome_ne_zero {c : Config} (wf : c.WellFormed) {f : Fmt} (hf : c.fPoly f ≠ 0) (a : Nat)
    (h : (polyMod a (c.fPoly f)).1 ≠ 0) : BitVec.ofNat 16 (polyMod a (c.fPoly f)).1 ≠ 0 := by
  have hdeg : (c.fPoly f).log2 < 17 := (Nat.log2_lt hf).mpr (wf.fDegree f)
  have hlt : (polyMod a (c.fPoly f)).1 < 2 ^ 16 :=
    (polyMod_fst_lt a hf).trans_le (Nat.pow_le_pow_right (by decide) (Nat.le_of_lt_succ hdeg))
  intro h0
  have hval := congrArg BitVec.toNat h0
  rw [BitVec.toNat_ofNat, Nat.mod_eq_of_lt hlt] at hval
  exact h hval

/-- Settles O51: the window is x^r times the telegram modulo x^N + 1, so g still divides it and its syndrome is that of x^r·g, for
which the index holds the shift that turns the window back. -/
theorem rotatedTelegramDecodes : Obligations.RotatedTelegramDecodes := by
  intro c f s r wf hf hg hr ⟨qg, hqg⟩ ⟨qf, hqf⟩ hlong hidx
  have hf0 : c.fPoly f ≠ 0 := by omega
  have hprod : gf2 (c.fgPoly f) = gf2 (c.fPoly f) * gf2 (c.gPoly f) := by rw [wf.product, gf2_clmul]
  obtain ⟨t, hbuilds, ht⟩ := builds_builtTelegram wf hf hg s
  refine ⟨t, hbuilds, fun d hlen hbits => ?_⟩
  have hrot : ∀ j < f.N, bitAt (tailWindow f d.ibuf) j = bitAt (builtTelegram c f s) ((j + r) % f.N) := fun j hj => by
    rw [bitAt_tailWindow f _ hj, hbits j hj, ht]
  have hgcheck : polyMod (telPoly f (tailWindow f d.ibuf)) (c.gPoly f) = (0, false) := by
    rw [polyMod_rotated wf hf hg s hr hrot (Dvd.intro_left _ hprod.symm) hqg]
    exact polyMod_of_dvd hg (Dvd.intro _ (gf2_shiftLeft _ r).symm)
  have hfsynd : polyMod (telPoly f (tailWindow f d.ibuf)) (c.fPoly f) = ((polyMod (c.gPoly f <<< r) (c.fPoly f)).1, false) := by
    rw [polyMod_rotated wf hf hg s hr hrot (Dvd.intro _ hprod.symm) hqf]
    exact Prod.ext rfl (polyMod_snd _ hf0)
  obtain ⟨u, hdecode, htel, hshift, hinv⟩ := decodeBody_of_syndrome hlen hgcheck hfsynd
    (fun h => syndrome_ne_zero wf hf0 _ (hlong h)) hidx (Nat.mod_lt _ (by omega))
  rw [realign_rotated hr hrot fun i hi => bitAt_builtTelegram_of_le c f s hi] at htel
  obtain ⟨v, hv, hdec⟩ := payloadSteps_builtTelegram wf ht htel
  rw [hshift, hinv] at hdec
  exact ⟨v, hdecode.trans hv, hdec⟩

end Sys2Proof.Machine
end

section
/-! PROOFS. What every command keeps, and the invariant of every step. Each body, whatever state it starts from, leaves the host's
registers and the input stream alone, keeps the narrow registers in their ranges, and raises only failures; sequences, the caught
raises and the search inherit this from their parts. -/

namespace Sys2Proof.Machine

/-! ### What a body keeps -/

/-- What only the host, the reset and SRESET write, with the model's record of the host (10_state.md R36-R38, R42). -/
def State.hostSide (s : State) :=
  (s.ie, s.werr, s.cmd, s.sbStart, s.esbStart, s.esbStep, s.host, s.responses)

/-- The input stream (10_state.md R41, R58). -/
def State.inputStream (s : State) := (s.ibuf, s.inLen)

/-- From s to t the host's registers and the input stream stay, and the narrow registers stay in their ranges. -/
structure Carries (s t : State) : Prop where
  hostSide : t.hostSide = s.hostSide
  inputStream : t.inputStream = s.inputStream
  ranges : s.RangesOk → t.RangesOk

theorem Carries.trans {s t u : State} (h : Carries s t) (k : Carries t u) : Carries s u :=
  ⟨k.hostSide.trans h.hostSide, k.inputStream.trans h.inputStream, k.ranges ∘ h.ranges⟩

/-- A raise names a failure, and never the state Done (60_exceptions.md R241, R244). -/
def BodyResult.RaisesFailure : BodyResult → Prop
  | .ok _ => True
  | .raised code stage _ => code ≠ .ok ∧ stage ≠ .done

/-- A body that started in s carries its state on, ended or raised, and raises only failures. -/
structure BodyResult.Keeps (s : State) (r : BodyResult) : Prop where
  carries : Carries s r.state
  raisesFailure : r.RaisesFailure

namespace BodyResult.Keeps

variable {s t : State} {r : BodyResult}

theorem ok (h : Carries s t) : (BodyResult.ok t).Keeps s := ⟨h, trivial⟩

theorem raised {code : ResultCode} {stage : SeqState} (h : Carries s t) (hcode : code ≠ .ok := by decide)
    (hstage : stage ≠ .done := by decide) : (BodyResult.raised code stage t).Keeps s := ⟨h, hcode, hstage⟩

theorem after (h : Carries s t) (k : r.Keeps t) : r.Keeps s := ⟨h.trans k.carries, k.raisesFailure⟩

theorem andThen (h : r.Keeps s) {next : State → BodyResult} (k : ∀ u, (next u).Keeps u) : (r.andThen next).Keeps s := by
  cases r with
  | ok u => exact (k u).after h.carries
  | raised c g u => exact h

theorem catching (h : r.Keeps s) (code : ResultCode) {handler : State → BodyResult} (k : ∀ u, (handler u).Keeps u) :
    (r.catching code handler).Keeps s := by
  cases r with
  | ok u => exact h
  | raised c g u =>
    rw [catching_raised]
    split
    · exact (k u).after h.carries
    · exact h

/-- The FORMAT check (30_encoding.md R106) keeps what the body keeps in every format. -/
theorem withFormat {own : SeqState} (hown : own ≠ .done) {body : Fmt → State → BodyResult} (s : State)
    (k : ∀ f u, (body f u).Keeps u) : (withFormat own body s).Keeps s := by
  obtain ⟨-, h⟩ | ⟨f, -, h⟩ := withFormat_cases own body s
  · rw [h]
    exact raised ⟨rfl, rfl, id⟩ (by decide) hown
  · rw [h]
    exact k f s

end BodyResult.Keeps

/-! ### Control and unit commands -/

theorem nopBody_keeps (s : State) : (nopBody s).Keeps s := .ok ⟨rfl, rfl, id⟩

theorem subencBody_keeps (c : Config) (v : BitVec 10) (s : State) : (subencBody c v s).Keeps s := .ok ⟨rfl, rfl, id⟩

theorem subdecBody_keeps (c : Config) (w : BitVec 11) (s : State) : (subdecBody c w s).Keeps s := .ok ⟨rfl, rfl, id⟩

theorem scrseedBody_keeps (c : Config) (f : Fmt) (sb : BitVec 12) (s : State) : (scrseedBody c f sb s).Keeps s :=
  .ok ⟨rfl, rfl, id⟩

theorem scrstepBody_keeps (c : Config) (b : Bool) (s : State) : (scrstepBody c b s).Keeps s := .ok ⟨rfl, rfl, id⟩

theorem polyremBy_keeps (f : Fmt) (p : Nat) (s : State) : (polyremBy f p s).Keeps s := by
  unfold polyremBy
  dsimp only
  split
  · exact .raised ⟨rfl, rfl, id⟩
  · exact .ok ⟨rfl, rfl, id⟩

theorem polyremBody_keeps (c : Config) (f : Fmt) (sel : BitVec 2) (s : State) : (polyremBody c f sel s).Keeps s := by
  unfold polyremBody
  split
  · exact .raised ⟨rfl, rfl, id⟩
  · exact polyremBy_keeps f _ s

/-! ### Decoder commands -/

theorem detectBody_keeps (s : State) : (detectBody s).Keeps s := by
  unfold detectBody
  dsimp only
  split
  · exact .raised ⟨rfl, rfl, id⟩
  · exact .ok ⟨rfl, rfl, id⟩

theorem windowBody_keeps (f : Fmt) (s : State) : (windowBody f s).Keeps s := .ok ⟨rfl, rfl, id⟩

theorem gcheckBody_keeps (c : Config) (f : Fmt) (s : State) : (gcheckBody c f s).Keeps s := by
  unfold gcheckBody
  dsimp only
  split
  · exact .raised ⟨rfl, rfl, id⟩
  · split
    · exact .raised ⟨rfl, rfl, id⟩
    · exact .ok ⟨rfl, rfl, id⟩

theorem fsyndBody_keeps (c : Config) (f : Fmt) (s : State) : (fsyndBody c f s).Keeps s := by
  unfold fsyndBody
  dsimp only
  split
  · exact .raised ⟨rfl, rfl, id⟩
  · exact .ok ⟨rfl, rfl, id⟩

/-- A shift that SUBST accepts is a telegram position (41_decode.md R167), so it fits SHIFT's range (10_state.md R47). -/
theorem toNat_shift_lt {f : Fmt} {e : Nat} (he : e < f.N) : (BitVec.ofNat 11 e).toNat < 1023 := by
  have hN := (Fmt.words_fit f).2.2.2.2
  rw [BitVec.toNat_ofNat]
  omega

theorem substBody_keeps (c : Config) (f : Fmt) (s : State) : (substBody c f s).Keeps s := by
  unfold substBody
  dsimp only
  split
  · exact .raised ⟨rfl, rfl, id⟩
  · split
    · exact .raised ⟨rfl, rfl, id⟩
    · next e _ =>
      split
      · exact .raised ⟨rfl, rfl, id⟩
      · next he =>
        exact .ok ⟨rfl, rfl, fun ⟨hatt, _, hdw, hnibs, htbuf⟩ => ⟨hatt, toNat_shift_lt (not_le.mp he), hdw, hnibs, htbuf⟩⟩

/-- The valid lanes are among the K payload words (40_units.md R126), so their count fits DWCOUNT's range (10_state.md R49). -/
theorem toNat_dwcount_le (c : Config) (f : Fmt) (tel : BitVec 1023) : (BitVec.ofNat 7 (contractCount c f tel)).toNat ≤ 83 := by
  have hcount : contractCount c f tel ≤ f.K := List.countP_le_length.trans_eq List.length_range
  have hK := (Fmt.words_fit f).1
  rw [BitVec.toNat_ofNat]
  omega

theorem validBody_keeps (c : Config) (f : Fmt) (s : State) : (validBody c f s).Keeps s := by
  have hdw := toNat_dwcount_le c f s.tel
  unfold validBody
  dsimp only
  split
  · exact .raised ⟨rfl, rfl, fun ⟨hatt, hshift, _, hnibs, htbuf⟩ => ⟨hatt, hshift, hdw, hnibs, htbuf⟩⟩
  · exact .ok ⟨rfl, rfl, fun ⟨hatt, hshift, _, hnibs, htbuf⟩ => ⟨hatt, hshift, hdw, hnibs, htbuf⟩⟩

theorem invertBody_keeps (f : Fmt) (s : State) : (invertBody f s).Keeps s := .ok ⟨rfl, rfl, id⟩

theorem descrBody_keeps (c : Config) (f : Fmt) (s : State) : (descrBody c f s).Keeps s := .ok ⟨rfl, rfl, id⟩

/-- The digits of a decoded payload (10_state.md R50). -/
theorem UN_digits (f : Fmt) : BitVec.ofNat 9 f.UN = 53 ∨ BitVec.ofNat 9 f.UN = 208 := by cases f <;> decide

theorem finalBody_keeps (f : Fmt) (s : State) : (finalBody f s).Keeps s :=
  .ok ⟨rfl, rfl, fun ⟨hatt, hshift, hdw, _, htbuf⟩ => ⟨hatt, hshift, hdw, .inr ((UN_digits f).imp_right .inl), htbuf⟩⟩

theorem validWithRetry_keeps (c : Config) (f : Fmt) (s : State) : (validWithRetry c f s).Keeps s :=
  (validBody_keeps c f s).catching _ fun u => (invertBody_keeps f u).andThen (validBody_keeps c f)

theorem decodeRest_keeps (c : Config) (f : Fmt) (s : State) : (decodeRest c f s).Keeps s :=
  (windowBody_keeps f s).andThen fun s =>
  (gcheckBody_keeps c f s).andThen fun s =>
  (fsyndBody_keeps c f s).andThen fun s =>
  (substBody_keeps c f s).andThen fun s =>
  (validWithRetry_keeps c f s).andThen fun s =>
  (descrBody_keeps c f s).andThen (finalBody_keeps f)

theorem decodeBody_keeps (c : Config) (s : State) : (decodeBody c s).Keeps s :=
  have hstart : Carries s { s with outNibs := 0, invused := false } :=
    ⟨rfl, rfl, fun ⟨hatt, hshift, hdw, _, htbuf⟩ => ⟨hatt, hshift, hdw, .inl rfl, htbuf⟩⟩
  .after hstart ((detectBody_keeps _).andThen fun u => .withFormat (by decide) u (decodeRest_keeps c))

/-! ### Encoder commands -/

theorem estartBody_keeps (f : Fmt) (s : State) : (estartBody f s).Keeps s :=
  .ok ⟨rfl, rfl, fun ⟨_, hshift, hdw, _, htbuf⟩ => ⟨Nat.zero_le _, hshift, hdw, .inl rfl, htbuf⟩⟩

/-- An attempt is counted only below ATT_MAX, so ATTEMPTS does not pass 2^22 (10_state.md R44, 42_encode.md R193). -/
theorem toNat_attempts_succ_le {a : BitVec 23} (h : a ≠ attMax) (ha : a.toNat ≤ 4194304) : (a + 1).toNat ≤ 4194304 := by
  unfold attMax at h
  bv_omega

theorem countAttempt_carries {s : State} (h : (moveToNext s).attempts ≠ attMax) : Carries s (countAttempt (moveToNext s)) :=
  ⟨rfl, rfl, fun ⟨hatt, hshift, hdw, hnibs, htbuf⟩ => ⟨toNat_attempts_succ_le h hatt, hshift, hdw, hnibs, htbuf⟩⟩

theorem advanceLoop_keeps (c : Config) (fuel : Nat) (s : State) : (advanceLoop c fuel s).Keeps s := by
  induction fuel generalizing s with
  | zero => exact .raised ⟨rfl, rfl, id⟩
  | succ n ih =>
    simp only [advanceLoop]
    split
    · exact .raised ⟨rfl, rfl, id⟩
    · next hatt =>
      have hcount := countAttempt_carries hatt
      split
      · exact .ok (hcount.trans ⟨rfl, rfl, id⟩)
      · exact (ih _).after hcount

theorem advanceBody_keeps (c : Config) (s : State) : (advanceBody c s).Keeps s :=
  have hstart : Carries s (clearCheckConds (enter .advanceSbEsb s)) := ⟨rfl, rfl, id⟩
  .after hstart (advanceLoop_keeps c _ _)

theorem prepBody_keeps (c : Config) (f : Fmt) (s : State) : (prepBody c f s).Keeps s := .ok ⟨rfl, rfl, id⟩

theorem assembleBody_keeps (c : Config) (f : Fmt) (s : State) : (assembleBody c f s).Keeps s := by
  unfold assembleBody
  dsimp only
  split
  · exact .raised ⟨rfl, rfl, id⟩
  · split
    · exact .raised ⟨rfl, rfl, id⟩
    · exact .ok ⟨rfl, rfl, id⟩

theorem conditionBody_keeps {own : SeqState} (hown : own ≠ .done) (k : Nat) (pass : Bool) (s : State) :
    (conditionBody own k pass s).Keeps s := by
  obtain ⟨-, h⟩ | ⟨-, h⟩ := conditionBody_cases own k pass s
  · rw [h]
    exact .ok ⟨rfl, rfl, id⟩
  · rw [h]
    exact .raised ⟨rfl, rfl, id⟩ (by decide) hown

theorem calphaBody_keeps (c : Config) (f : Fmt) (s : State) : (calphaBody c f s).Keeps s :=
  conditionBody_keeps (by decide) _ _ s

theorem caperBody_keeps (f : Fmt) (s : State) : (caperBody f s).Keeps s := conditionBody_keeps (by decide) _ _ s

theorem coffsBody_keeps (c : Config) (f : Fmt) (s : State) : (coffsBody c f s).Keeps s :=
  conditionBody_keeps (by decide) _ _ s

theorem cunderBody_keeps (c : Config) (f : Fmt) (s : State) : (cunderBody c f s).Keeps s :=
  conditionBody_keeps (by decide) _ _ s

/-- A telegram is shorter than TBUF, so the padding holds TBUF's last bit at 0 (10_state.md R57, 42_encode.md R208). -/
theorem bitAt_padTo_candidate_last (f : Fmt) (tel : BitVec 1023) : bitAt (padTo 1024 (candidate f tel)) 1023 = false := by
  have hN := (Fmt.words_fit f).2.2.2.2
  rw [bitAt_padTo _ (by omega), bitAt_of_le _ hN]

/-- The digits of an encoded telegram (10_state.md R50). -/
theorem TN_digits (f : Fmt) : BitVec.ofNat 9 f.TN = 86 ∨ BitVec.ofNat 9 f.TN = 256 := by cases f <;> decide

theorem emitBody_keeps (f : Fmt) (s : State) : (emitBody f s).Keeps s :=
  .ok ⟨rfl, rfl, fun ⟨hatt, hshift, hdw, _, _⟩ =>
    ⟨hatt, hshift, hdw, .inr (.inr (.inr (TN_digits f))), bitAt_padTo_candidate_last f s.tel⟩⟩

theorem candidateBody_keeps (c : Config) (f : Fmt) (s : State) : (candidateBody c f s).Keeps s :=
  (prepBody_keeps c f s).andThen fun s =>
  (assembleBody_keeps c f s).andThen fun s =>
  (calphaBody_keeps c f s).andThen fun s =>
  (caperBody_keeps f s).andThen fun s =>
  (coffsBody_keeps c f s).andThen (cunderBody_keeps c f)

theorem encodeLoop_keeps (c : Config) (f : Fmt) (fuel : Nat) (s : State) : (encodeLoop c f fuel s).Keeps s := by
  induction fuel generalizing s with
  | zero => exact .raised ⟨rfl, rfl, id⟩
  | succ n ih =>
    exact (advanceBody_keeps c s).andThen fun u =>
      ((candidateBody_keeps c f u).andThen (emitBody_keeps f)).catching _ ih

theorem encodeBody_keeps (c : Config) (f : Fmt) (s : State) : (encodeBody c f s).Keeps s :=
  (estartBody_keeps f s).andThen fun u => encodeLoop_keeps c f _ u

/-! ### Every command -/

/-- Every command but SRESET and CLRIN ends a body that keeps all this. -/
theorem exec_keeps (i : Instr) (s : State) (hsreset : i ≠ .sreset) (hclrin : i ≠ .clrin) :
    ∃ r : BodyResult, exec i s = .next r.finish ∧ r.Keeps s := by
  cases i with
  | sreset => exact absurd rfl hsreset
  | clrin => exact absurd rfl hclrin
  | nop => exact ⟨_, rfl, nopBody_keeps s⟩
  | decode => exact ⟨_, rfl, decodeBody_keeps _ s⟩
  | detect => exact ⟨_, rfl, detectBody_keeps s⟩
  | window => exact ⟨_, rfl, .withFormat (by decide) s windowBody_keeps⟩
  | gcheck => exact ⟨_, rfl, .withFormat (by decide) s (gcheckBody_keeps _)⟩
  | fsynd => exact ⟨_, rfl, .withFormat (by decide) s (fsyndBody_keeps _)⟩
  | subst => exact ⟨_, rfl, .withFormat (by decide) s (substBody_keeps _)⟩
  | valid => exact ⟨_, rfl, .withFormat (by decide) s (validBody_keeps _)⟩
  | invert => exact ⟨_, rfl, .withFormat (by decide) s invertBody_keeps⟩
  | descr => exact ⟨_, rfl, .withFormat (by decide) s (descrBody_keeps _)⟩
  | final => exact ⟨_, rfl, .withFormat (by decide) s finalBody_keeps⟩
  | encode f => exact ⟨_, rfl, encodeBody_keeps _ f s⟩
  | estart f => exact ⟨_, rfl, estartBody_keeps f s⟩
  | advance => exact ⟨_, rfl, .withFormat (by decide) s fun _ => advanceBody_keeps _⟩
  | prep => exact ⟨_, rfl, .withFormat (by decide) s (prepBody_keeps _)⟩
  | assemble => exact ⟨_, rfl, .withFormat (by decide) s (assembleBody_keeps _)⟩
  | calpha => exact ⟨_, rfl, .withFormat (by decide) s (calphaBody_keeps _)⟩
  | caper => exact ⟨_, rfl, .withFormat (by decide) s caperBody_keeps⟩
  | coffs => exact ⟨_, rfl, .withFormat (by decide) s (coffsBody_keeps _)⟩
  | cunder => exact ⟨_, rfl, .withFormat (by decide) s (cunderBody_keeps _)⟩
  | emit => exact ⟨_, rfl, .withFormat (by decide) s emitBody_keeps⟩
  | subenc v => exact ⟨_, rfl, subencBody_keeps _ v s⟩
  | subdec w => exact ⟨_, rfl, subdecBody_keeps _ w s⟩
  | scrseed f sb => exact ⟨_, rfl, scrseedBody_keeps _ f sb s⟩
  | scrstep b => exact ⟨_, rfl, scrstepBody_keeps _ b s⟩
  | polyrem f sel => exact ⟨_, rfl, polyremBody_keeps _ f sel s⟩

/-- The end of a command writes neither the host's side nor the input stream (R244, R245). -/
theorem finish_hostSide (r : BodyResult) : r.finish.hostSide = r.state.hostSide := by cases r <;> rfl

theorem finish_inputStream (r : BodyResult) : r.finish.inputStream = r.state.inputStream := by cases r <;> rfl

theorem exec_hostSide {i : Instr} {s t : State} (hsreset : i ≠ .sreset) (h : exec i s = .next t) :
    t.hostSide = s.hostSide := by
  by_cases hclrin : i = .clrin
  · subst hclrin
    cases h
    rfl
  · obtain ⟨r, hr, hkeeps⟩ := exec_keeps i s hsreset hclrin
    cases hr.symm.trans h
    exact (finish_hostSide r).trans hkeeps.carries.hostSide

theorem exec_inputStream {i : Instr} {s t : State} (hsreset : i ≠ .sreset) (hclrin : i ≠ .clrin) (h : exec i s = .next t) :
    t.inputStream = s.inputStream := by
  obtain ⟨r, hr, hkeeps⟩ := exec_keeps i s hsreset hclrin
  cases hr.symm.trans h
  exact (finish_inputStream r).trans hkeeps.carries.inputStream

/-- Settles O12: no body writes the host's side, and CLRIN's alone writes the input stream. -/
theorem commandsKeepHostInputs : Obligations.CommandsKeepHostInputs := by
  intro i s t h hsreset
  have hside := exec_hostSide hsreset h
  simp only [State.hostSide, Prod.mk.injEq] at hside
  obtain ⟨hie, hwerr, hcmd, hsb, hesb, hstep, hhost, hresp⟩ := hside
  exact ⟨hie, hwerr, hcmd, hsb, hesb, hstep, hhost, hresp, fun hclrin => Prod.mk.inj (exec_inputStream hsreset hclrin h)⟩

/-! ### The invariant: CORE's step -/

/-- A command that raised only failures, and left the narrow registers in range, has ended in a state of the invariant. -/
theorem finish_inv {r : BodyResult} (hfail : r.RaisesFailure) (hran : r.state.RangesOk) : r.finish.Inv := by
  cases r with
  | ok u => exact ⟨⟨rfl, nofun⟩, .inr (.inl ⟨rfl, rfl, rfl⟩), hran⟩
  | raised c g u =>
    obtain ⟨hcode, hstage⟩ := hfail
    exact ⟨⟨rfl, nofun⟩, .inr (.inr ⟨rfl, hcode, hstage⟩), hran⟩

theorem reset_rangesOk : State.reset.RangesOk :=
  ⟨Nat.zero_le _, by decide, by decide, .inl rfl, by simp [bitAt, State.reset]⟩

theorem resetBlock_inv (s : State) : (resetBlock s).Inv := ⟨⟨rfl, nofun⟩, .inl ⟨rfl, rfl, rfl⟩, reset_rangesOk⟩

theorem softReset_inv (s : State) : (softReset s).Inv := ⟨⟨rfl, nofun⟩, .inr (.inl ⟨rfl, rfl, rfl⟩), reset_rangesOk⟩

theorem exec_inv {i : Instr} {s t : State} (hran : s.RangesOk) (h : exec i s = .next t) : t.Inv := by
  by_cases hsreset : i = .sreset
  · subst hsreset
    cases h
    exact softReset_inv s
  by_cases hclrin : i = .clrin
  · subst hclrin
    cases h
    exact finish_inv (r := clrinBody s) trivial hran
  obtain ⟨r, hr, hkeeps⟩ := exec_keeps i s hsreset hclrin
  cases hr.symm.trans h
  exact finish_inv hkeeps.raisesFailure (hkeeps.carries.ranges hran)

theorem coreStep_inv {w : Word} {s t : State} (hran : s.RangesOk) (h : coreStep w s = .next t) : t.Inv := by
  unfold coreStep at h
  split at h
  · cases h
    exact finish_inv (r := .raised .illegal .decode s) ⟨by decide, by decide⟩ hran
  · exact exec_inv hran h

/-! ### The invariant: a step of the outside -/

theorem accept_inv (w : Word) {s : State} (h : s.Inv) : (accept w s).Inv := by
  obtain ⟨-, hres, hran⟩ := h
  exact ⟨⟨rfl, fun w' hw => ⟨Option.some.inj hw, rfl⟩⟩, hres, hran⟩

/-- A write of STATUS only clears DONE, which is 0 already while a word is in flight (10_state.md R37). -/
theorem clearStatus_inv (v : Word) {s : State} (h : s.Inv) : (clearStatus v s).Inv := by
  obtain ⟨⟨hbusy, hpend⟩, hres, hran⟩ := h
  refine ⟨⟨hbusy, fun w hw => ?_⟩, hres, hran⟩
  obtain ⟨hcmd, hdone⟩ := hpend w hw
  exact ⟨hcmd, by simp [clearStatus, hdone]⟩

theorem pushWord_inv (v : Word) {s : State} (h : s.Inv) : (pushWord v s).Inv :=
  List.foldlRecOn (motive := State.Inv) _ _ h fun _ hu _ _ => hu

/-- A performed write touches the invariant's registers at STATUS only (20_memory.md R72). -/
theorem storeLocation_inv (l : Location) (v : Word) {s : State} (h : s.Inv) : (storeLocation l v s).Inv := by
  cases l with
  | unmapped => exact h
  | buf b w => cases b <;> exact h
  | reg r =>
    cases r with
    | status => exact clearStatus_inv v h
    | inWord => exact pushWord_inv v h
    | _ => exact h

theorem memRead_inv (off : Nat) {s : State} (h : s.Inv) : (memRead off s).Inv := by
  obtain ⟨w, n, hread⟩ := memRead_frame off s
  rw [hread]
  exact h

theorem memWrite_inv (off : Nat) (v : Word) {s : State} (h : s.Inv) : (memWrite off v s).Inv := by
  obtain hw | hw | hw | hw | hw := memWrite_cases off v s
  all_goals rw [hw]
  · exact h
  · exact storeLocation_inv _ v h
  · exact accept_inv v h
  · exact softReset_inv s
  · exact h

/-- An access that is answered is performed (93 I12). -/
theorem atOffset_next {off : Nat} {access : State → State} {s t : State} (h : atOffset off access s = .next t) :
    t = access s := by
  obtain ⟨-, -, ha⟩ | ha | ha := atOffset_cases off access s <;> cases ha.symm.trans h
  rfl

/-- A step of the outside that is answered changes the model's record of the host, and then reads, writes, resets, or does
no more. -/
theorem hostStep_next {s t : State} (h : hostStep s = .next t) : ∃ rest n,
    t = { s with host := rest, latency := n } ∨ t = resetBlock { s with host := rest, latency := n } ∨
    (∃ off, t = memRead off { s with host := rest, latency := n }) ∨
    ∃ off v, t = memWrite off v { s with host := rest, latency := n } := by
  unfold hostStep at h
  split at h
  · cases h
    exact ⟨s.host, s.latency, .inl rfl⟩
  · next e rest _ =>
    cases e with
    | read off => exact ⟨_, _, .inr (.inr (.inl ⟨off, atOffset_next h⟩))⟩
    | write off v => exact ⟨_, _, .inr (.inr (.inr ⟨off, v, atOffset_next h⟩))⟩
    | waitIdle =>
      cases h
      exact ⟨_, _, .inr (.inr (.inl ⟨statusOffset, rfl⟩))⟩
    | waitIrq =>
      cases h
      exact ⟨_, _, .inl rfl⟩
    | externalReset =>
      cases h
      exact ⟨_, _, .inr (.inl rfl)⟩

theorem hostStep_inv {s t : State} (hinv : s.Inv) (h : hostStep s = .next t) : t.Inv := by
  obtain ⟨rest, n, ht | ht | ⟨off, ht⟩ | ⟨off, v, ht⟩⟩ := hostStep_next h <;> subst ht
  · exact hinv
  · exact resetBlock_inv _
  · exact memRead_inv off hinv
  · exact memWrite_inv off v hinv

/-- Settles O10: CORE's step ends a command that keeps the ranges; a step of the outside is a read, a write or a reset. -/
theorem stepKeepsInvariant : Obligations.StepKeepsInvariant := by
  intro s t hinv h
  obtain ⟨w, -, -, hcore⟩ | hhost := step_cases s
  · obtain ⟨-, -, hran⟩ := hinv
    exact coreStep_inv hran (hcore.symm.trans h)
  · exact hostStep_inv hinv (hhost.symm.trans h)

end Sys2Proof.Machine
end

section
/-! PROOFS. What the port's words read as: the map of offsets, the reset state, and the images of STATUS, RESULT, SEQ and FORMAT. -/

namespace Sys2Proof.Machine

open Claims

/-! ### Reset -/

/-- The converse of regAt_offset: no register stands at another offset (10_state.md R32). -/
theorem offset_of_regAt {off : Nat} {r : PortReg} (h : regAt off = some r) : off = r.offset := by
  unfold regAt at h
  split at h <;> cases h <;> rfl

/-- At an offset that no register has stands a buffer word, or nothing. -/
theorem locate_of_regAt_none {off : Nat} (h : regAt off = none) :
    (∃ b w, locate off = .buf b w) ∨ locate off = .unmapped := by
  simp only [locate, h]
  split
  · exact .inl ⟨_, _, rfl⟩
  · exact .inr rfl

theorem readBufWord_zero (n w : Nat) : readBufWord (0 : BitVec n) w = 0 := by
  simp [readBufWord, padTo, slice]

theorem readBuf_reset (b : PortBuf) (w : Nat) : readBuf b w State.reset = 0 := by
  cases b <;> exact readBufWord_zero _ w

/-- R271 with R35, register by register. -/
theorem readReg_reset (r : PortReg) :
    readReg r State.reset = if r.offset = 0x000 then 0x45424331 else if r.offset = 0x030 then 1 else 0 := by
  cases r <;> decide

/-- Settles O53: an offset is a register's own, or it is neither ID's nor ESB_STEP's and what stands there reads 0. -/
theorem resetReadsAsTable : Obligations.ResetReadsAsTable := by
  intro off
  cases hreg : regAt off with
  | some r =>
    rw [offset_of_regAt hreg, locate_reg]
    exact readReg_reset r
  | none =>
    have hid : off ≠ 0x000 := by
      rintro rfl
      cases hreg
    have hstep : off ≠ 0x030 := by
      rintro rfl
      cases hreg
    rw [if_neg hid, if_neg hstep]
    obtain ⟨b, w, hl⟩ | hl := locate_of_regAt_none hreg
    · rw [hl]
      exact readBuf_reset b w
    · rw [hl]
      rfl

/-! ### The images of codes -/

theorem SeqState.toNat_code (q : SeqState) : q.code.toNat = stateNumber q := by cases q <;> rfl

theorem ResultCode.toNat_code (c : ResultCode) : c.code.toNat = resultNumber c := by cases c <;> rfl

theorem toNat_formatCode (f : Option Fmt) : (formatCode f).toNat = formatNumber f := by
  obtain _ | _ | _ := f <;> rfl

/-- What a write of two bits to FORMAT stores, by number (10_state.md R40). -/
theorem formatNumber_formatOfCode (v : BitVec 2) :
    formatNumber (formatOfCode v) = if v.toNat = 3 then 0 else v.toNat := by
  revert v
  decide

/-- STATUS is its flags, the first one lowest (10_state.md R37). -/
theorem statusWord_eq_concat (s : State) : statusWord s =
    (((((0 : BitVec 27).concat s.invused).concat s.werr).concat (statusErr s)).concat s.done).concat s.busy := rfl

theorem statusErr_eq_decide (s : State) : statusErr s = decide (s.resultCode ≠ .ok) := by
  simp [statusErr, bne, beq_eq_decide]

theorem getLsbD_statusWord (s : State) (k : Nat) : (statusWord s).getLsbD k =
    if k = 0 then s.busy else if k = 1 then s.done else if k = 2 then decide (s.resultCode ≠ .ok)
      else if k = 3 then s.werr else if k = 4 then s.invused else false := by
  rw [statusWord_eq_concat]
  simp only [BitVec.getLsbD_concat, statusErr_eq_decide]
  match k with
  | 0 | 1 | 2 | 3 | 4 => rfl
  | k + 5 => simp

theorem toNat_append_eq_add {m n : Nat} (x : BitVec m) (y : BitVec n) : (x ++ y).toNat = x.toNat * 2 ^ n + y.toNat := by
  rw [BitVec.toNat_append, ← Nat.shiftLeft_add_eq_or_of_lt y.isLt, Nat.shiftLeft_eq]

/-- RESULT's layout as a number: its two fields stand 8 bits apart and the rest is 0 (10_state.md R39). -/
theorem toNat_resultFields (stage : BitVec 8) (code : BitVec 4) :
    ((0 : BitVec 16) ++ stage ++ (0 : BitVec 4) ++ code).toNat = stage.toNat * 256 + code.toNat := by
  simp only [toNat_append_eq_add, BitVec.ofNat_eq_ofNat, BitVec.toNat_ofNat]
  omega

theorem toNat_resultWord (s : State) :
    (resultWord s).toNat = stateNumber s.resultStage * 256 + resultNumber s.resultCode := by
  rw [← SeqState.toNat_code, ← ResultCode.toNat_code]
  exact toNat_resultFields _ _

/-- An idle write of FORMAT (20_memory.md R72). -/
theorem memWrite_format {s : State} (v : Word) (h : s.busy = false) :
    memWrite 0x018 v s = { s with format := formatOfCode (v.extractLsb' 0 2) } :=
  if_neg (by simp [h])

/-- Settles O59: each image bit by bit or as a number, with the model's codes read off the written-out tables. -/
theorem statusAndResultImages : Obligations.StatusAndResultImages := by
  refine ⟨getLsbD_statusWord, toNat_resultWord, fun s => ?seq, fun s => ?format, fun s v hbusy => ?write⟩
  case seq =>
    change (s.seq.code.setWidth 32).toNat = _
    rw [BitVec.toNat_setWidth_of_le (by decide), SeqState.toNat_code]
  case format =>
    change ((formatCode s.format).setWidth 32).toNat = _
    rw [BitVec.toNat_setWidth_of_le (by decide), toNat_formatCode]
  case write =>
    have hbits : (v.extractLsb' 0 2).toNat = v.toNat % 4 := by simp
    rw [memWrite_format v hbusy, formatNumber_formatOfCode, hbits]

end Sys2Proof.Machine
end

section
/-! PROOFS. The memory of the port (20_memory.md): how the buffers' words hold the bits of the strings (R75) and what a push does
to the input (R76). -/

namespace Sys2Proof.Machine

open Claims

/-! ### What stands at an offset, and an idle write of it -/

/-- The registers stand below the buffers (10_state.md R32). -/
theorem regAt_of_le {off : Nat} (h : 0x100 ≤ off) : regAt off = none := by
  cases hreg : regAt off with
  | none => rfl
  | some r =>
    have hlt : r.offset < 0x100 := by cases r <;> decide
    have hoff := offset_of_regAt hreg
    omega

/-- A buffer starts at a page of 256 bytes (10_state.md R32). -/
theorem PortBuf.offset_eq_page (b : PortBuf) : b.offset = 0x100 * (b.offset / 0x100) := by cases b <;> rfl

theorem PortBuf.words_le (b : PortBuf) : b.words ≤ 32 := by cases b <;> decide

/-- No two buffers share a page (10_state.md R32). -/
theorem PortBuf.eq_of_page {b c : PortBuf} : b.offset / 0x100 = c.offset / 0x100 → b = c := by
  cases b <;> cases c <;> decide

/-- Every buffer word stands where its offset says (10_state.md R32). -/
theorem locate_buf {b : PortBuf} {w : Nat} (hw : w < b.words) : locate (b.offset + 4 * w) = .buf b w := by
  have hlo : 0x100 ≤ b.offset := by cases b <;> decide
  have hbw := b.words_le
  have hb := b.offset_eq_page
  unfold locate
  rw [regAt_of_le (by omega)]
  cases hfind : allBufs.find? fun c => decide (c.offset ≤ b.offset + 4 * w ∧ b.offset + 4 * w < c.offset + 4 * c.words) with
  | none =>
    have hmem : b ∈ allBufs := by cases b <;> decide
    have hout := List.find?_eq_none.mp hfind b hmem
    simp only [decide_eq_true_eq] at hout
    omega
  | some c =>
    have hin := List.find?_some hfind
    have hcw := c.words_le
    have hc := c.offset_eq_page
    simp only [decide_eq_true_eq] at hin
    obtain rfl : c = b := PortBuf.eq_of_page (by omega)
    simp

/-- The converse of locate_buf: a buffer word stands at no other word-aligned offset. -/
theorem offset_of_locate_buf {off : Nat} {b : PortBuf} {w : Nat} (hal : off % 4 = 0) (h : locate off = .buf b w) :
    off = b.offset + 4 * w ∧ w < b.words := by
  unfold locate at h
  split at h
  · cases h
  · split at h
    next c hfind =>
      cases h
      have hrange := List.find?_some hfind
      have hbase : b.offset % 4 = 0 := by cases b <;> decide
      simp only [decide_eq_true_eq] at hrange
      omega
    next => cases h

/-- While idle, a write of a read-write location is performed (20_memory.md R72). -/
theorem memWrite_guarded {s : State} {off : Nat} (v : Word) (hbusy : s.busy = false) (h : writeClass (locate off) = .guarded) :
    memWrite off v s = storeLocation (locate off) v s := by
  simp [memWrite, h, hbusy]

/-! ### Words and bits of a buffer (R75) -/

/-- Index k of a word is its bit 31 - k (R75). -/
theorem bitAt_word (v : Word) {k : Nat} (hk : k < 32) : bitAt v k = v.getLsbD (31 - k) := by
  simp [bitAt_eq_getLsbD, hk]

theorem bitAt_readBufWord {n : Nat} (x : BitVec n) {w k : Nat} (hn : n ≤ 1024) (hw : w < 32) (hk : k < 32) :
    bitAt (readBufWord x w) k = bitAt x (32 * w + k) := by
  rw [readBufWord, bitAt_slice _ hk (by omega), bitAt_padTo x hn]

theorem bitAt_writeBufWord {n : Nat} (x : BitVec n) (v : Word) {w i : Nat} (hn : n ≤ 1024) (hw : w < 32) (hi : i < n) :
    bitAt (writeBufWord x w v) i = if i / 32 = w then v.getLsbD (31 - i % 32) else bitAt x i := by
  rw [writeBufWord, bitAt_slice _ hi (by omega), Nat.zero_add, bitAt_place _ v (by omega), bitAt_padTo x hn]
  by_cases hiw : i / 32 = w
  · rw [if_pos (by omega), if_pos hiw, ← bitAt_word v (Nat.mod_lt i (by decide))]
    congr 1
    omega
  · rw [if_neg (by omega), if_neg hiw]

theorem bufBit_of_le (b : PortBuf) (s : State) {i : Nat} (h : bufLength b ≤ i) : bufBit b s i = false := by
  cases b <;> exact bitAt_of_le _ h

theorem bitAt_readBuf (b : PortBuf) (s : State) {w k : Nat} (hw : w < b.words) (hk : k < 32) :
    bitAt (readBuf b w s) k = bufBit b s (32 * w + k) := by
  have hw32 := hw.trans_le b.words_le
  cases b <;> exact bitAt_readBufWord _ (by decide) hw32 hk

/-- A buffer word depends on its own bits of the buffer only. -/
theorem readBuf_congr {b : PortBuf} {s t : State} {w : Nat} (hw : w < b.words)
    (h : ∀ i < bufLength b, i / 32 = w → bufBit b t i = bufBit b s i) : readBuf b w t = readBuf b w s := by
  refine eq_of_bitAt fun k hk => ?_
  rw [bitAt_readBuf b t hw hk, bitAt_readBuf b s hw hk]
  by_cases hlen : 32 * w + k < bufLength b
  · exact h _ hlen (by omega)
  · rw [bufBit_of_le b t (by omega), bufBit_of_le b s (by omega)]

/-! ### A performed write of a buffer word -/

/-- The buffers that the host may write (10_state.md R32). -/
abbrev writableBufs : List PortBuf := [.ubuf, .tel, .wbuf, .pbuf]

theorem writeClass_writable {b : PortBuf} (hb : b ∈ writableBufs) (w : Nat) : writeClass (.buf b w) = .guarded := by
  fin_cases hb <;> rfl

theorem bufBit_store_same {b : PortBuf} (hb : b ∈ writableBufs) {w i : Nat} (v : Word) (s : State) (hw : w < b.words)
    (hi : i < bufLength b) :
    bufBit b (storeLocation (.buf b w) v s) i = if i / 32 = w then v.getLsbD (31 - i % 32) else bufBit b s i := by
  have hw32 := hw.trans_le b.words_le
  fin_cases hb <;> exact bitAt_writeBufWord _ v (by decide) hw32 hi

/-- A write of a word of b leaves the bits of every other buffer. -/
theorem bufBit_store (b c : PortBuf) (w : Nat) (v : Word) (s : State) (i : Nat) :
    bufBit c (storeLocation (.buf b w) v s) i = if c = b then bufBit b (storeLocation (.buf b w) v s) i else bufBit c s i := by
  cases b <;> cases c <;> rfl

/-- A write of a buffer word reaches no register. -/
theorem readReg_store_buf (r : PortReg) (b : PortBuf) (w : Nat) (v : Word) (s : State) :
    readReg r (storeLocation (.buf b w) v s) = readReg r s := by
  cases b <;> rfl

/-- A write of a buffer word reaches no other location of the port. -/
theorem readLocation_store_buf {b : PortBuf} (hb : b ∈ writableBufs) {w off : Nat} (v : Word) (s : State) (hw : w < b.words)
    (hal : off % 4 = 0) (hne : off ≠ b.offset + 4 * w) :
    readLocation (locate off) (storeLocation (.buf b w) v s) = readLocation (locate off) s := by
  cases hl : locate off with
  | reg r => exact readReg_store_buf r b w v s
  | unmapped => rfl
  | buf c u =>
    obtain ⟨hoff, hu⟩ := offset_of_locate_buf hal hl
    refine readBuf_congr hu fun i hi hiu => ?_
    by_cases hcb : c = b
    · subst hcb
      rw [bufBit_store_same hb v s hw hi, if_neg (by omega)]
    · rw [bufBit_store, if_neg hcb]

/-- Settles O54: a word is read bit by bit, and an idle write stores into its own place and into no other location. -/
theorem bufferWordsHoldStringBits : Obligations.BufferWordsHoldStringBits := by
  refine ⟨fun b s w k hw hk => ?read, fun s b w v hbusy hb hw => ?write⟩
  case read =>
    rw [locate_buf hw, ← bitAt_word _ hk]
    refine (bitAt_readBuf b s hw hk).trans ?_
    by_cases hlen : 32 * w + k < bufLength b
    · simp [hlen]
    · simp [hlen, bufBit_of_le b s (Nat.not_lt.mp hlen)]
  case write =>
    have hstore : memWrite (b.offset + 4 * w) v s = storeLocation (.buf b w) v s := by
      rw [← locate_buf hw]
      exact memWrite_guarded v hbusy (by rw [locate_buf hw]; exact writeClass_writable hb w)
    rw [hstore]
    exact ⟨fun i hi => bufBit_store_same hb v s hw hi,
      fun off hal hne => readLocation_store_buf hb v s hw hal hne⟩

/-! ### Pushes (R76) -/

/-- A digit appended: the bits move four places toward index 0 and the digit stands last. -/
theorem bitAt_pushDigit_ibuf (d : BitVec 4) (s : State) (i : Nat) :
    bitAt (pushDigit d s).ibuf i = if i < 1020 then bitAt s.ibuf (i + 4) else bitAt d (i - 1020) := by
  refine (bitAt_append (slice s.ibuf 4 1020) d i).trans ?_
  by_cases hi : i < 1020
  · rw [if_pos hi, if_pos hi, bitAt_slice _ hi (by decide), Nat.add_comm]
  · rw [if_neg hi, if_neg hi]

/-- IN_LEN counts one digit and saturates (10_state.md R41). -/
theorem toNat_pushDigit_inLen (d : BitVec 4) (s : State) :
    (pushDigit d s).inLen.toNat = min (s.inLen.toNat + 1) 65535 := by
  have hlt := s.inLen.isLt
  by_cases hmax : s.inLen = 0xFFFF
  · simp [pushDigit, hmax]
  · have hne : s.inLen.toNat ≠ 65535 := fun h => hmax (BitVec.eq_of_toNat_eq h)
    have hinc : (pushDigit d s).inLen = s.inLen + 1 := if_neg hmax
    rw [hinc, BitVec.toNat_add, show (1 : BitVec 16).toNat = 1 from rfl]
    omega

/-- The first n digits of a word pushed, the most significant first; a word is eight of them. -/
def pushDigits (v : Word) (n : Nat) (s : State) : State :=
  (List.range n).foldl (fun s j => pushDigit (slice v (4 * j) 4) s) s

theorem pushWord_eq_pushDigits (v : Word) (s : State) : pushWord v s = pushDigits v 8 s := rfl

theorem pushDigits_succ (v : Word) (n : Nat) (s : State) :
    pushDigits v (n + 1) s = pushDigit (slice v (4 * n) 4) (pushDigits v n s) := by
  simp [pushDigits, List.range_succ]

/-- Digits move IBUF and IN_LEN and nothing else. -/
theorem pushDigits_frame (v : Word) (n : Nat) (s : State) :
    pushDigits v n s = { s with ibuf := (pushDigits v n s).ibuf, inLen := (pushDigits v n s).inLen } := by
  induction n with
  | zero => rfl
  | succ n ih =>
    rw [pushDigits_succ, ih]
    rfl

theorem toNat_pushDigits_inLen (v : Word) (n : Nat) (s : State) :
    (pushDigits v n s).inLen.toNat = min (s.inLen.toNat + n) 65535 := by
  have hlt := s.inLen.isLt
  induction n with
  | zero =>
    change s.inLen.toNat = _
    omega
  | succ n ih =>
    rw [pushDigits_succ, toNat_pushDigit_inLen, ih]
    omega

/-- n digits appended: the string moves 4n places toward index 0 and the word's first 4n bits stand last. -/
theorem bitAt_pushDigits_ibuf (v : Word) (s : State) {n : Nat} (hn : n ≤ 8) {i : Nat} (hi : i < 1024) :
    bitAt (pushDigits v n s).ibuf i =
      if i < 1024 - 4 * n then bitAt s.ibuf (i + 4 * n) else bitAt v (i + 4 * n - 1024) := by
  induction n generalizing i with
  | zero => exact (if_pos hi).symm
  | succ n ih =>
    rw [pushDigits_succ, bitAt_pushDigit_ibuf]
    by_cases hold : i < 1020
    · rw [if_pos hold, ih (by omega) (by omega), show i + 4 + 4 * n = i + 4 * (n + 1) by omega]
      exact if_congr (by omega) rfl rfl
    · rw [if_neg hold, if_neg (by omega), bitAt_slice _ (by omega) (by omega),
        show 4 * n + (i - 1020) = i + 4 * (n + 1) - 1024 by omega]

/-- Settles O55: IN_NIB pushes the last digit of its word, IN_WORD all eight. -/
theorem pushesKeepInputTail : Obligations.PushesKeepInputTail := by
  intro s v hbusy
  have hnib : memWrite 0x020 v s = pushDigit (slice v 28 4) s := memWrite_guarded v hbusy rfl
  have hword : memWrite 0x024 v s = pushDigits v 8 s :=
    (memWrite_guarded v hbusy rfl).trans (pushWord_eq_pushDigits v s)
  rw [hnib, hword]
  refine ⟨⟨(pushDigit (slice v 28 4) s).ibuf, ?_, fun i hi => ?_⟩,
    ⟨(pushDigits v 8 s).ibuf, ?_, fun i hi => ?_⟩⟩
  · rw [← toNat_pushDigit_inLen (slice v 28 4) s, BitVec.ofNat_toNat, BitVec.setWidth_eq]
    rfl
  · rw [bitAt_pushDigit_ibuf]
    by_cases hold : i < 1020
    · rw [if_pos hold, if_pos hold]
    · rw [if_neg hold, if_neg hold, bitAt_slice _ (by omega) (by decide), bitAt_word v (by omega)]
      exact congrArg v.getLsbD (by omega)
  · rw [← toNat_pushDigits_inLen v 8 s, BitVec.ofNat_toNat, BitVec.setWidth_eq]
    exact pushDigits_frame v 8 s
  · rw [bitAt_pushDigits_ibuf v s (le_refl 8) hi]
    by_cases hold : i < 992
    · rw [if_pos hold, if_pos hold]
    · rw [if_neg hold, if_neg hold, bitAt_word v (by omega)]
      exact congrArg v.getLsbD (by omega)

end Sys2Proof.Machine
end

section
/-! PROOFS. The encoding (30_encoding.md R100-R105). Clearing the bits a row's format does not use in any word of the row gives
the command's own word; from this decode and encode undo each other, and a word with a reserved encoding is no command's. -/

namespace Sys2Proof

/-! ### The fields of a command word -/

/-- Above RSV stand OPC, F and SEL (R100). -/
theorem extractLsb'_commandWord (start len : Nat) (opc : BitVec 8) (f : BitVec 1) (sel : BitVec 2) (imm : BitVec 12) :
    (commandWord opc f sel imm).extractLsb' (start + 21) len = (opc ++ f ++ sel).extractLsb' start len :=
  calc (commandWord opc f sel imm).extractLsb' (start + 21) len
    _ = (opc ++ f ++ sel ++ (0 : BitVec 9)).extractLsb' (start + 21 - 12) len :=
      BitVec.extractLsb'_append_eq_of_le (by omega)
    _ = (opc ++ f ++ sel).extractLsb' (start + 21 - 12 - 9) len := BitVec.extractLsb'_append_eq_of_le (by omega)
    _ = (opc ++ f ++ sel).extractLsb' start len := by rw [Nat.sub_sub, Nat.add_sub_cancel]

@[simp] theorem fieldOpc_commandWord (opc : BitVec 8) (f : BitVec 1) (sel : BitVec 2) (imm : BitVec 12) :
    fieldOpc (commandWord opc f sel imm) = opc :=
  calc fieldOpc (commandWord opc f sel imm)
    _ = (opc ++ f ++ sel).extractLsb' 3 8 := extractLsb'_commandWord 3 8 opc f sel imm
    _ = (opc ++ f).extractLsb' 1 8 := BitVec.extractLsb'_append_eq_of_le (by decide)
    _ = opc := BitVec.extractLsb'_append_eq_left

@[simp] theorem fieldSel_commandWord (opc : BitVec 8) (f : BitVec 1) (sel : BitVec 2) (imm : BitVec 12) :
    fieldSel (commandWord opc f sel imm) = sel :=
  (extractLsb'_commandWord 0 2 opc f sel imm).trans BitVec.extractLsb'_append_eq_right

theorem fieldImm_commandWord {k : Nat} (hk : k ≤ 12) (opc : BitVec 8) (f : BitVec 1) (sel : BitVec 2) (imm : BitVec 12) :
    fieldImm k (commandWord opc f sel imm) = imm.setWidth k := by
  rw [BitVec.setWidth_eq_extractLsb' hk]
  exact BitVec.extractLsb'_append_eq_of_add_le (by omega)

/-- Bit k of a word as a field of one bit. -/
theorem ofBool_getElem (w : Word) {k : Nat} (hk : k < 32) : BitVec.ofBool w[k] = w.extractLsb' k 1 := by
  ext i hi
  simp [Nat.lt_one_iff.mp hi, BitVec.getLsbD_eq_getElem hk]

/-- The operand bit of format I1 is IMM[0] (R102). -/
theorem ofBool_getElem_zero (w : Word) : BitVec.ofBool w[0] = fieldImm 1 w := ofBool_getElem w (by decide)

@[simp] theorem getElem_zero_commandWord (opc : BitVec 8) (f : BitVec 1) (sel : BitVec 2) (imm : BitVec 12) :
    (commandWord opc f sel imm)[0] = imm[0] :=
  BitVec.ofBool_eq_iff_eq.mp <| by
    rw [ofBool_getElem_zero, fieldImm_commandWord (by decide), BitVec.setWidth_one, BitVec.getLsbD_eq_getElem (by decide)]

/-- No bits of IMM. -/
@[simp] theorem fieldImm_zero (w : Word) : fieldImm 0 w = 0#0 := BitVec.eq_nil _

theorem fmtBit_fieldFmt (w : Word) : fmtBit (fieldFmt w) = w.extractLsb' 23 1 := by
  rw [← ofBool_getElem w (by decide), fieldFmt, BitVec.getLsbD_eq_getElem (by decide)]
  cases w[23] <;> rfl

theorem fmtBit_injective : Function.Injective fmtBit := by
  intro a b
  cases a <;> cases b <;> decide

@[simp] theorem fieldFmt_commandWord (opc : BitVec 8) (fmt : Fmt) (sel : BitVec 2) (imm : BitVec 12) :
    fieldFmt (commandWord opc (fmtBit fmt) sel imm) = fmt :=
  fmtBit_injective <|
    calc fmtBit (fieldFmt (commandWord opc (fmtBit fmt) sel imm))
      _ = (commandWord opc (fmtBit fmt) sel imm).extractLsb' 23 1 := fmtBit_fieldFmt _
      _ = (opc ++ fmtBit fmt ++ sel).extractLsb' 2 1 := extractLsb'_commandWord 2 1 _ _ _ _
      _ = (opc ++ fmtBit fmt).extractLsb' 0 1 := BitVec.extractLsb'_append_eq_of_le (by decide)
      _ = fmtBit fmt := BitVec.extractLsb'_append_eq_right

/-- A word is its fields side by side, RSV among them (R100). -/
theorem append_fields (w : Word) :
    fieldOpc w ++ w.extractLsb' 23 1 ++ fieldSel w ++ w.extractLsb' 12 9 ++ fieldImm 12 w = w := by
  have hF : fieldOpc w ++ w.extractLsb' 23 1 = w.extractLsb' 23 9 := BitVec.extractLsb'_append_extractLsb'_eq_extractLsb' rfl
  have hSel : w.extractLsb' 23 9 ++ fieldSel w = w.extractLsb' 21 11 := BitVec.extractLsb'_append_extractLsb'_eq_extractLsb' rfl
  have hRsv : w.extractLsb' 21 11 ++ w.extractLsb' 12 9 = w.extractLsb' 12 20 :=
    BitVec.extractLsb'_append_extractLsb'_eq_extractLsb' rfl
  rw [hF, hSel, hRsv]
  exact (BitVec.extractLsb'_append_extractLsb'_eq_extractLsb' rfl).trans BitVec.extractLsb'_eq_self

/-- Fields side by side meet field by field. -/
theorem and_append_fields {a b c d e : Nat} (p p' : BitVec a) (q q' : BitVec b) (r r' : BitVec c) (s s' : BitVec d)
    (t t' : BitVec e) : (p ++ q ++ r ++ s ++ t) &&& (p' ++ q' ++ r' ++ s' ++ t') =
      (p &&& p') ++ (q &&& q') ++ (r &&& r') ++ (s &&& s') ++ (t &&& t') := by
  simp only [BitVec.and_append]

/-- A field kept or cleared whole. -/
theorem and_ite_allOnes {n : Nat} (x : BitVec n) (b : Bool) :
    x &&& (if b then BitVec.allOnes n else 0#n) = if b then x else 0#n := by
  cases b <;> simp

/-- The low k bits of IMM (R102), in place. -/
theorem fieldImm_and_mask (w : Word) (k : Nat) :
    fieldImm 12 w &&& (BitVec.allOnes k).setWidth 12 = (fieldImm k w).setWidth 12 := by
  ext i hi
  simp [fieldImm, Bool.and_comm]

/-! ### The fields a format uses -/

/-- The format has the field F (R101). -/
def CmdFormat.usesFmt : CmdFormat → Bool
  | .nf | .fi12 | .fs => true
  | .n | .i10 | .i11 | .i1 => false

/-- The format has the field SEL (R101). -/
def CmdFormat.usesSel : CmdFormat → Bool
  | .fs => true
  | .n | .nf | .i10 | .i11 | .i1 | .fi12 => false

/-- How many bits of IMM the format uses (R101). -/
def CmdFormat.immWidth : CmdFormat → Nat
  | .n | .nf | .fs => 0
  | .i10 => 10
  | .i11 => 11
  | .i1 => 1
  | .fi12 => 12

theorem not_mustBeZero (f : CmdFormat) :
    ~~~mustBeZero f = BitVec.allOnes 8 ++ (if f.usesFmt then BitVec.allOnes 1 else 0) ++
      (if f.usesSel then BitVec.allOnes 2 else 0) ++ (0 : BitVec 9) ++ (BitVec.allOnes f.immWidth).setWidth 12 := by
  cases f <;> decide

/-- Clearing the bits a format does not use leaves the fields it uses. -/
theorem and_not_mustBeZero (f : CmdFormat) (w : Word) :
    w &&& ~~~mustBeZero f = commandWord (fieldOpc w) (if f.usesFmt then fmtBit (fieldFmt w) else 0)
      (if f.usesSel then fieldSel w else 0) ((fieldImm f.immWidth w).setWidth 12) :=
  calc w &&& ~~~mustBeZero f
    _ = (fieldOpc w ++ w.extractLsb' 23 1 ++ fieldSel w ++ w.extractLsb' 12 9 ++ fieldImm 12 w) &&&
        (BitVec.allOnes 8 ++ (if f.usesFmt then BitVec.allOnes 1 else 0) ++
          (if f.usesSel then BitVec.allOnes 2 else 0) ++ (0 : BitVec 9) ++ (BitVec.allOnes f.immWidth).setWidth 12) := by
      rw [append_fields, not_mustBeZero]
    _ = _ := and_append_fields ..
    _ = _ := by
      simp only [and_ite_allOnes, BitVec.and_allOnes, fieldImm_and_mask, fmtBit_fieldFmt, commandWord,
        BitVec.ofNat_eq_ofNat, BitVec.and_zero]

/-! ### The rows -/

/-- The format of a command's row (R103). -/
def Instr.format : Instr → CmdFormat
  | .encode _ | .estart _ => .nf
  | .subenc _ => .i10
  | .subdec _ => .i11
  | .scrseed _ _ => .fi12
  | .scrstep _ => .i1
  | .polyrem _ _ => .fs
  | _ => .n

/-- A command's word is in the command's own row, with the operands of the command. -/
theorem opcodeRow_encode (i : Instr) : opcodeRow (encode i) = some (i.format, i) := by
  cases i with
  | encode _ | estart _ | scrstep _ | polyrem _ _ => simp [opcodeRow, encode, Instr.format]
  | subenc _ | subdec _ | scrseed _ _ => simp [opcodeRow, encode, Instr.format, fieldImm_commandWord]
  | _ => rfl

/-- The word of the command a row gives for w is w with the bits the row's format does not use cleared. -/
theorem encode_of_opcodeRow {w : Word} {f : CmdFormat} {i : Instr} (h : opcodeRow w = some (f, i)) :
    encode i = w &&& ~~~mustBeZero f := by
  have hopc : fieldOpc w = BitVec.ofNat 8 (fieldOpc w).toNat := by simp
  rw [and_not_mustBeZero, hopc]
  unfold opcodeRow at h
  generalize (fieldOpc w).toNat = opc at h
  split at h <;> cases h <;>
    simp [encode, CmdFormat.usesFmt, CmdFormat.usesSel, CmdFormat.immWidth, ofBool_getElem_zero]

theorem encode_and_mustBeZero (i : Instr) : encode i &&& mustBeZero i.format = 0 := by
  rw [encode_of_opcodeRow (opcodeRow_encode i), BitVec.and_assoc, BitVec.and_comm (~~~_), BitVec.and_not_self]
  exact BitVec.and_zero

/-! ### Decoding -/

/-- A word without the bits of m loses nothing when they are cleared. -/
theorem and_not_eq_self {w m : Word} (h : w &&& m = 0) : w &&& ~~~m = w :=
  calc w &&& ~~~m
    _ = (w &&& m) ||| (w &&& ~~~m) := by simp [h]
    _ = w &&& (m ||| ~~~m) := BitVec.and_or_distrib_left.symm
    _ = w := by rw [BitVec.or_not_self, BitVec.and_allOnes]

/-- SEL = 3 is the one operand value no word may hold (R105). -/
theorem Instr.wellFormed_iff (i : Instr) :
    i.wellFormed = true ↔ ¬(i.format = .fs ∧ fieldSel (Sys2Proof.encode i) = 3) := by
  cases i with
  | polyrem fmt sel => simp [Instr.wellFormed, Instr.format, Sys2Proof.encode]
  | _ => simp [Instr.wellFormed, Instr.format]

/-- When the decoder accepts a word (R104). -/
theorem decode_eq_ok_iff (w : Word) (i : Instr) :
    decode w = .ok i ↔
      ∃ f, opcodeRow w = some (f, i) ∧ w &&& mustBeZero f = 0 ∧ ¬(f = .fs ∧ fieldSel w = 3) := by
  unfold decode
  cases opcodeRow w with
  | none => simp
  | some row =>
    obtain ⟨f, j⟩ := row
    simp only [Option.some.injEq, Prod.mk.injEq]
    split_ifs with hset hsel
    · refine iff_of_false not_false ?_
      rintro ⟨_, ⟨rfl, -⟩, hzero, -⟩
      exact hset hzero
    · refine iff_of_false not_false ?_
      rintro ⟨_, ⟨rfl, -⟩, -, hne⟩
      exact hne hsel
    · refine ⟨fun h => ⟨f, ⟨rfl, Except.ok.inj h⟩, not_not.mp hset, hsel⟩, ?_⟩
      rintro ⟨_, ⟨-, rfl⟩, -, -⟩
      rfl

theorem decode_encode {i : Instr} (hi : i.wellFormed = true) : decode (encode i) = .ok i :=
  (decode_eq_ok_iff _ _).mpr ⟨i.format, opcodeRow_encode i, encode_and_mustBeZero i, i.wellFormed_iff.mp hi⟩

theorem encode_of_decode {w : Word} {i : Instr} (h : decode w = .ok i) : i.wellFormed = true ∧ encode i = w := by
  obtain ⟨f, hrow, hzero, hsel⟩ := (decode_eq_ok_iff w i).mp h
  have hkept : w &&& ~~~mustBeZero f = w := and_not_eq_self hzero
  obtain rfl : encode i = w := (encode_of_opcodeRow hrow).trans hkept
  obtain ⟨rfl, -⟩ := Prod.mk.inj (Option.some.inj ((opcodeRow_encode i).symm.trans hrow))
  exact ⟨i.wellFormed_iff.mpr hsel, rfl⟩

/-- Settles O1: the command's word lies in its row, holds no bit its format does not use, and no reserved SEL. -/
theorem decodeOfEncode : Obligations.DecodeOfEncode := fun _ hi => decode_encode hi

/-- Settles O2: an accepted word has no bit to clear, so it is the command's encoding. -/
theorem encodeOfDecode : Obligations.EncodeOfDecode := fun _ _ h => encode_of_decode h

/-- Settles O3: each written-out word is its command's encoding. -/
theorem writtenWordsDecode : Obligations.WrittenWordsDecode :=
  ⟨decode_encode (i := .sreset) rfl, decode_encode (i := .final) rfl, decode_encode (i := .encode .long) rfl,
    decode_encode (i := .subenc 0x155) rfl, decode_encode (i := .scrseed .long 0x123) rfl,
    decode_encode (i := .scrstep true) rfl, decode_encode (i := .polyrem .long 1) rfl⟩

end Sys2Proof

namespace Sys2Proof.Machine

open Claims

/-! ### CORE's step -/

theorem step_of_coreDue {w : Word} {s : State} (h : CoreDue w s) : step s = coreStep w s := by
  obtain ⟨hpend, hdue⟩ := h
  simp [step, blockStep, hpend, hdue]

theorem coreStep_of_decode_ok {w : Word} {i : Instr} (h : decode w = .ok i) (s : State) : coreStep w s = exec i s := by
  simp [coreStep, h]

/-- A word that is no command's ends ILLEGAL (R104). -/
theorem coreStep_of_decode_ne_ok {w : Word} (h : ∀ i, decode w ≠ .ok i) (s : State) :
    coreStep w s = .next (endedBy .illegal .decode s) := by
  unfold coreStep
  cases hdec : decode w with
  | error _ => rfl
  | ok i => exact absurd hdec (h i)

/-- Settles O5: CORE's step is taken when it is due, and runs what the decoder answers. -/
theorem stepRunsDecodedCommand : Obligations.StepRunsDecodedCommand := fun s _ _ hdue hdec =>
  (step_of_coreDue hdue).trans (coreStep_of_decode_ok hdec s)

/-! ### Reserved encodings -/

theorem toNat_fieldOpc (w : Word) : (fieldOpc w).toNat = w.toNat / 2 ^ 24 := by
  rw [fieldOpc, BitVec.extractLsb'_toNat, Nat.shiftRight_eq_div_pow]
  have hw := w.isLt
  omega

/-- The statement's table of unused bits, by opcode, is the formats' table (R101, R103). -/
theorem unusedBits_encode (i : Instr) : unusedBits ((encode i).toNat / 2 ^ 24) = mustBeZero i.format := by
  rw [← toNat_fieldOpc]
  cases i <;> simp [encode, unusedBits, mustBeZero, Instr.format]

/-- Every format requires RSV to be 0 (R100). -/
theorem mustBeZero_and_rsv (f : CmdFormat) : mustBeZero f &&& 0x001FF000 = 0x001FF000 := by
  cases f <;> decide

theorem encode_and_rsv (i : Instr) : encode i &&& 0x001FF000 = 0 := by
  rw [← mustBeZero_and_rsv i.format, ← BitVec.and_assoc, encode_and_mustBeZero]
  decide

/-- A command's opcode is in one of the ranges R103 assigns. -/
theorem encode_opcode_assigned (i : Instr) :
    (encode i).toNat / 2 ^ 24 ≤ 0x02 ∨ (0x10 ≤ (encode i).toNat / 2 ^ 24 ∧ (encode i).toNat / 2 ^ 24 ≤ 0x19) ∨
    (0x20 ≤ (encode i).toNat / 2 ^ 24 ∧ (encode i).toNat / 2 ^ 24 ≤ 0x29) ∨
    (0x30 ≤ (encode i).toNat / 2 ^ 24 ∧ (encode i).toNat / 2 ^ 24 ≤ 0x34) := by
  rw [← toNat_fieldOpc]
  cases i <;> simp [encode]

theorem format_of_opcode {i : Instr} (h : (encode i).toNat / 2 ^ 24 = 0x34) : i.format = .fs := by
  rw [← toNat_fieldOpc] at h
  cases i <;> simp [encode, Instr.format] at h ⊢

/-- A word with both bits of SEL set (R100). -/
theorem fieldSel_of_and {w : Word} (h : w &&& 0x00600000 = 0x00600000) : fieldSel w = 3 := by
  have hand : fieldSel (w &&& 0x00600000) = fieldSel w &&& fieldSel 0x00600000 := BitVec.extractLsb'_and
  rw [h] at hand
  exact (BitVec.and_allOnes (x := fieldSel w)).symm.trans hand.symm

/-- The encodings R105 reserves are no command's. -/
theorem not_usesReserved_encode {i : Instr} (hi : i.wellFormed = true) : ¬UsesReserved (encode i) := by
  have hopc := encode_opcode_assigned i
  rintro (h | h | h | h | hrsv | hunused | ⟨hpolyrem, hsel⟩)
  · omega
  · omega
  · omega
  · omega
  · exact hrsv (encode_and_rsv i)
  · rw [unusedBits_encode] at hunused
    exact hunused (encode_and_mustBeZero i)
  · exact i.wellFormed_iff.mp hi ⟨format_of_opcode hpolyrem, fieldSel_of_and hsel⟩

theorem decode_ne_ok_of_usesReserved {w : Word} (h : UsesReserved w) (i : Instr) : decode w ≠ .ok i := by
  intro hdec
  obtain ⟨hi, rfl⟩ := encode_of_decode hdec
  exact not_usesReserved_encode hi h

/-- Settles O4: the decoder accepts only words of commands, and no command's word uses a reserved encoding. -/
theorem reservedWordsEndIllegal : Obligations.ReservedWordsEndIllegal := fun s _ hdue hres =>
  (step_of_coreDue hdue).trans (coreStep_of_decode_ne_ok (decode_ne_ok_of_usesReserved hres) s)

end Sys2Proof.Machine
end

section
/-! PROOFS. The unit commands (40_units.md R122-R135): their words, the lookups of the substitution code, the scrambler's seed and
step, the remainder of the divider; and the way of a payload through PREP, DESCR and FINAL (95_test_vectors.md). -/

namespace Sys2Proof.Machine

open Claims Polynomial

/-! ### Command words as numbers -/

/-- A command word as a number: each field at its place (R100). -/
theorem toNat_commandWord (opc : BitVec 8) (f : BitVec 1) (sel : BitVec 2) (imm : BitVec 12) :
    (commandWord opc f sel imm).toNat = opc.toNat * 2 ^ 24 + f.toNat * 2 ^ 23 + sel.toNat * 2 ^ 21 + imm.toNat := by
  simp only [commandWord, toNat_append_eq_add, BitVec.ofNat_eq_ofNat, BitVec.toNat_zero]
  omega

/-- Decode and encode undo each other, so a command that some word means has one word. -/
theorem onlyWord_encode {i : Instr} (hi : i.wellFormed = true) : OnlyWord (encode i) i := fun _ =>
  ⟨fun hdec => (encode_of_decode hdec).2.symm, fun hw => hw ▸ decode_encode hi⟩

theorem onlyWord_of_toNat {i : Instr} {n : Nat} (hi : i.wellFormed = true) (hn : (encode i).toNat = n) :
    OnlyWord (BitVec.ofNat 32 n) i := by
  rw [← hn, BitVec.ofNat_toNat, BitVec.setWidth_eq]
  exact onlyWord_encode hi

/-- The words that a command's own statement calls reserved are among those of R105. -/
theorem unusedBitsIllegal (opc : Nat) : UnusedBitsIllegal opc := by
  rintro s w hdue rfl hbits
  refine reservedWordsEndIllegal s w hdue ?_
  rcases hbits with hunused | hsel
  · exact .inr (.inr (.inr (.inr (.inr (.inl hunused)))))
  · exact .inr (.inr (.inr (.inr (.inr (.inr hsel)))))

/-! ### The substitution code -/

/-- SUBENC's whole effect (R127). -/
theorem exec_subenc (v : BitVec 10) (s : State) :
    exec (.subenc v) s = .next (endedOk { s with res := (Config.chip.subEnc v).setWidth 32 }) := rfl

/-- SUBDEC's whole effect (R128). -/
theorem exec_subdec (w : BitVec 11) (s : State) :
    exec (.subdec w) s = .next (endedOk { s with res := subdecResult Config.chip w }) := rfl

theorem subdecResult_of_none {c : Config} {w : BitVec 11} (h : c.subDec w = none) : subdecResult c w = 0x80000000 := by
  simp [subdecResult, h]

theorem subdecResult_of_some {c : Config} {w : BitVec 11} {e : BitVec 10} (h : c.subDec w = some e) :
    subdecResult c w = BitVec.ofNat 32 e.toNat := by
  simp [subdecResult, h]

theorem toNat_encode_subdec (w : BitVec 11) : (encode (.subdec w)).toNat = 0x31000000 + w.toNat := by
  have hw : w.toNat < 4096 := by omega
  simp [encode, toNat_commandWord, Nat.mod_eq_of_lt hw]

/-- Settles O18: the row's one word, and the two kinds of table entry. -/
theorem subdecLooksUp : Obligations.SubdecLooksUp := by
  refine ⟨unusedBitsIllegal _, fun w => ⟨onlyWord_of_toNat rfl (toNat_encode_subdec w), fun s => ?_⟩⟩
  rw [exec_subdec]
  cases h : Config.chip.subDec w with
  | none => rw [subdecResult_of_none h]
  | some e => rw [subdecResult_of_some h]

/-- RES[10:0] after SUBENC is the whole codeword. -/
theorem ofNat_toNat_setWidth (x : BitVec 11) : BitVec.ofNat 11 (x.setWidth 32).toNat = x := by
  rw [BitVec.ofNat_toNat, BitVec.setWidth_setWidth_of_le _ (by decide), BitVec.setWidth_eq]

/-- Settles O19: SUBDEC is handed the codeword of v, and R10 gives that its entry is v. -/
theorem subdecUndoesSubenc : Obligations.SubdecUndoesSubenc := by
  intro v s
  have hentry : subdecResult Config.chip (Config.chip.subEnc v) = BitVec.ofNat 32 v.toNat :=
    subdecResult_of_some (Config.installed.wf.decEnc v)
  refine ⟨_, _, exec_subenc v s, exec_subdec _ _, ?_⟩
  simp only [endedOk, ofNat_toNat_setWidth, hentry, and_self]

/-! ### The scrambler's seed and step -/

theorem toNat_fmtBit_mul (f : Fmt) : (fmtBit f).toNat * 2 ^ 23 = if f = .long then 0x00800000 else 0 := by
  cases f <;> rfl

theorem toNat_encode_scrseed (f : Fmt) (sb : BitVec 12) :
    (encode (.scrseed f sb)).toNat = 0x32000000 + (if f = .long then 0x00800000 else 0) + sb.toNat := by
  simp [encode, toNat_commandWord, ← toNat_fmtBit_mul]

/-- The seed (R131) as a product of numbers, mod 2^32. -/
theorem seedValue_eq_ofNat (c : Config) (f : Fmt) (sb : BitVec 12) :
    seedValue c f sb = BitVec.ofNat 32 ((c.scrMult f).toNat * sb.toNat) := by
  simp [seedValue, BitVec.ofNat_mul]

/-- SCRSEED's whole effect (R133). -/
theorem exec_scrseed (f : Fmt) (sb : BitVec 12) (s : State) : exec (.scrseed f sb) s = .next (endedOk { s with
    scr := Config.chip.scrInit (seedValue Config.chip f sb), res := seedValue Config.chip f sb }) := rfl

/-- An odd factor can be cancelled mod 2^32. -/
theorem eq_of_ofNat_odd_mul {m a b : Nat} (hm : Odd m) (ha : a < 2 ^ 32) (hb : b < 2 ^ 32)
    (h : BitVec.ofNat 32 (m * a) = BitVec.ofNat 32 (m * b)) : a = b := by
  have hmul : m * a ≡ m * b [MOD 2 ^ 32] := by simpa [Nat.ModEq] using congrArg BitVec.toNat h
  have hcoprime : Nat.gcd (2 ^ 32) m = 1 := (hm.coprime_two_left).pow_left 32
  exact (Nat.ModEq.cancel_left_of_coprime hcoprime hmul).eq_of_lt_of_lt ha hb

theorem odd_scrMult {c : Config} (wf : c.WellFormed) (f : Fmt) : Odd (c.scrMult f).toNat := by
  have hbit := wf.multOdd f
  rw [BitVec.getLsbD, Nat.testBit_zero] at hbit
  exact Nat.odd_iff.mpr (of_decide_eq_true hbit)

/-- Settles O20: SCR_MULT is odd (R10), so SB can be read back from the product. -/
theorem scrseedSeeds : Obligations.ScrseedSeeds := by
  refine ⟨unusedBitsIllegal _, fun f sb => ⟨onlyWord_of_toNat rfl (toNat_encode_scrseed f sb), fun s => ?_⟩,
    fun f sb sb' h => BitVec.eq_of_toNat_eq ?_⟩
  · rw [exec_scrseed, seedValue_eq_ofNat]
  · exact eq_of_ofNat_odd_mul (odd_scrMult Config.installed.wf f) (by omega) (by omega) h

theorem toNat_encode_scrstep (b : Bool) : (encode (.scrstep b)).toNat = 0x33000000 + b.toNat := by
  cases b <;> rfl

theorem setWidth_ofBool (b : Bool) : (BitVec.ofBool b).setWidth 32 = if b then 1 else 0 := by
  cases b <;> rfl

/-- SCRSTEP's whole effect (R134). -/
theorem exec_scrstep (b : Bool) (s : State) : exec (.scrstep b) s = .next (endedOk { s with
    res := (BitVec.ofBool (scramblerOut s.scr)).setWidth 32, scr := Config.chip.scrAdv s.scr b }) := rfl

/-- Settles O21: the output bit is SCR[0] of the state before the advance (R129). -/
theorem scrstepAdvances : Obligations.ScrstepAdvances := by
  refine ⟨unusedBitsIllegal _, fun b => ⟨onlyWord_of_toNat rfl (toNat_encode_scrstep b), fun s => ?_⟩⟩
  rw [exec_scrstep, setWidth_ofBool, scramblerOut]

/-! ### The remainder of the divider -/

/-- Every polynomial over GF(2) is a number's. -/
theorem gf2_surjective : Function.Surjective gf2 := by
  intro P
  induction P using Polynomial.induction_on' with
  | add P Q hP hQ =>
    obtain ⟨a, rfl⟩ := hP
    obtain ⟨b, rfl⟩ := hQ
    exact ⟨a ^^^ b, gf2_xor a b⟩
  | monomial n x =>
    have zero_or_one : ∀ y : ZMod 2, y = 0 ∨ y = 1 := by decide
    rcases zero_or_one x with rfl | rfl
    · exact ⟨0, by simp⟩
    · exact ⟨2 ^ n, by rw [gf2_two_pow, X_pow_eq_monomial]⟩

/-- Smaller degree, with deg(0) = −∞ (R15), in numbers. -/
theorem lt_two_pow_log2_iff (r p : Nat) : r < 2 ^ p.log2 ↔ r = 0 ∨ r.log2 < p.log2 := by
  by_cases hr : r = 0
  · simp [hr]
  · simp [hr, Nat.log2_lt hr]

/-- The dividend is a multiple of the divisor plus r exactly when they are congruent. -/
theorem exists_eq_clmul_xor_iff (a p r : Nat) : (∃ q, a = clmul q p ^^^ r) ↔ gf2 p ∣ gf2 a - gf2 r := by
  have hq (q : Nat) : a = clmul q p ^^^ r ↔ gf2 a - gf2 r = gf2 p * gf2 q := by
    rw [← gf2_injective.eq_iff, gf2_xor, gf2_clmul, sub_eq_iff_eq_add, mul_comm]
  simp only [hq, dvd_def, gf2_surjective.exists]

/-- Settles O22: the remainder of polynomials over GF(2), read back in numbers. -/
theorem polyModIsARemainder : Obligations.PolyModIsARemainder := by
  refine ⟨polyMod_zero, fun a p hp => ⟨polyMod_snd a hp, ?_, ?_⟩⟩
  · exact (lt_two_pow_log2_iff _ _).mp (polyMod_fst_lt a hp)
  · rw [exists_eq_clmul_xor_iff, gf2_polyMod a hp]
    exact ⟨_, sub_eq_of_eq_add' (modByMonic_add_div _ _).symm⟩

/-- Settles O23: a and r differ by a multiple of p, and r is its own remainder. -/
theorem remainderIsUnique : Obligations.RemainderIsUnique := by
  intro a p q r hp hdeg ha
  have hdvd : gf2 p ∣ gf2 a - gf2 r := (exists_eq_clmul_xor_iff a p r).mp ⟨q, ha⟩
  calc polyMod a p
    _ = polyMod r p := polyMod_congr hdvd
    _ = (r, false) := polyMod_of_lt hp ((lt_two_pow_log2_iff r p).mpr hdeg)

/-! ### PREP, DESCR, FINAL -/

theorem exec_prep (s : State) : exec .prep s = .next (withFormat .prepare (prepBody Config.chip) s).finish := rfl

theorem exec_descr (s : State) : exec .descr s = .next (withFormat .descramble (descrBody Config.chip) s).finish := rfl

theorem exec_final (s : State) : exec .final s = .next (withFormat .finalize finalBody s).finish := rfl

/-- PREP on its own (R194, R106): what DESCR reads of the state it leaves. -/
theorem exec_prep_wbuf {s : State} {f : Fmt} (h : s.format = some f) :
    ∃ t, exec .prep s = .next t ∧ t.format = some f ∧ t.sb = s.sb ∧ t.wbuf = preparedWords Config.chip f s := by
  have hexec : exec .prep s = .next (prepBody Config.chip f s).finish := by rw [exec_prep, withFormat_some h]
  exact ⟨_, hexec, h, rfl, rfl⟩

/-- DESCR on its own (R172, R106): what FINAL reads of the state it leaves. -/
theorem exec_descr_wbuf {s : State} {f : Fmt} (h : s.format = some f) :
    ∃ t, exec .descr s = .next t ∧ t.format = some f ∧ t.wbuf = (scramble Config.chip f s.sb .dec s.wbuf).2 := by
  have hexec : exec .descr s = .next (descrBody Config.chip f s).finish := by rw [exec_descr, withFormat_some h]
  exact ⟨_, hexec, h, rfl⟩

/-- FINAL on its own (R174, R106). -/
theorem exec_final_ubuf {s : State} {f : Fmt} (h : s.format = some f) :
    ∃ t, exec .final s = .next t ∧ t.resultCode = .ok ∧
      t.ubuf = place (padTo 832 (slice s.wbuf 0 f.M)) 0 (BitVec.ofNat 10 (uncheckedFirst f s.wbuf)) := by
  have hexec : exec .final s = .next (finalBody f s).finish := by rw [exec_final, withFormat_some h]
  exact ⟨_, hexec, rfl, rfl⟩

/-- Settles O48: DESCR undoes the scrambling (R132) and FINAL the checksum (R195); the trailer is zero. -/
theorem prepDescrFinalRoundTrip : Obligations.PrepDescrFinalRoundTrip := by
  intro s f hf
  obtain ⟨t, hprep, htf, htsb, htw⟩ := exec_prep_wbuf hf
  obtain ⟨u, hdescr, huf, huw⟩ := exec_descr_wbuf htf
  obtain ⟨v, hfinal, hvok, hvu⟩ := exec_final_ubuf huf
  have hwords : u.wbuf = checksummed f s.ubuf := by rw [huw, htsb, htw, scramble_preparedWords]
  have hpayload : v.ubuf = padTo 832 (slice s.ubuf 0 f.M) := by rw [hvu, hwords, final_checksummed]
  have hM : f.M ≤ 832 := by cases f <;> decide
  refine ⟨t, u, v, hprep, hdescr, hfinal, hvok, fun i hi => ?_, fun i hi => ?_⟩
  · rw [hpayload, bitAt_zero_padded _ hM hM, if_pos hi]
  · rw [hpayload, bitAt_zero_padded _ hM hM, if_neg (Nat.not_lt.mpr hi)]

end Sys2Proof.Machine
end

section
/-! PROOFS. The decoder's step commands alone (41_decode.md R161-R174): their words, the FORMAT check before them, and what each
writes, bit by bit. -/

namespace Sys2Proof.Machine

open Claims

/-! ### Strings read as blocks, words and fields -/

/-- A slice is the string of its bits (00_scope.md R12). -/
theorem slice_eq_packBits {n : Nat} (x : BitVec n) {a len : Nat} (h : a + len ≤ n) :
    slice x a len = packBits len fun i => bitAt x (a + i) := by
  refine eq_of_bitAt fun i hi => ?_
  rw [bitAt_slice _ hi h, bitAt_packBits _ hi]

theorem word10_eq_slice {n : Nat} (x : BitVec n) {j : Nat} (h : 10 * j + 10 ≤ n) : word10 x j = slice x (10 * j) 10 :=
  (slice_eq_packBits x h).symm

/-- Block j of a telegram, where the format has one (40_units.md R120). -/
theorem slice_eq_block {f : Fmt} (tel : BitVec 1023) {j : Nat} (hj : j < f.K) :
    slice tel (11 * j) 11 = block fun i => bitAt tel (11 * j + i) := by
  have hK := (Fmt.words_fit f).2.1
  exact slice_eq_packBits tel (by omega)

/-! ### Step commands -/

/-- A step command that runs a body after the FORMAT check: without a format it ends SEQ_ERR (30_encoding.md R106), and its effect
need be shown in a format only. -/
theorem stepCommand_of_body {w : Word} {i : Instr} {own : SeqState} {body : Fmt → State → BodyResult}
    {effect : Fmt → State → Prop} (hword : OnlyWord w i) (hexec : ∀ s, exec i s = .next (withFormat own body s).finish)
    (heffect : ∀ f s, exec i s = .next (body f s).finish → effect f s) : StepCommand w i own effect := by
  refine ⟨hword, fun s => ?_⟩
  split
  next hnone => rw [hexec, withFormat_none hnone]; rfl
  next f hf => exact heffect f s (by rw [hexec, withFormat_some hf])

/-- A body's own SEQ state is overwritten at the end of its command (60_exceptions.md R244, R245). -/
theorem finish_ok_enter (own : SeqState) (s : State) : (BodyResult.ok (enter own s)).finish = endedOk s := rfl

theorem finish_raised_enter (code : ResultCode) (stage own : SeqState) (s : State) :
    (BodyResult.raised code stage (enter own s)).finish = endedBy code stage s := rfl

/-! ### DETECT (R161) -/

theorem detectBody_of_lt {s : State} (h : s.inLen.toNat < 86) :
    detectBody s = .raised .fmtErr .detectFormat { enter .detectFormat s with format := none } := by
  have hlen : s.inLen < 86 := BitVec.lt_def.mpr h
  rw [detectBody, if_pos hlen, detectedFormat, if_pos hlen]

/-- Settles O26: the three ranges of IN_LEN. -/
theorem detectChoosesFormat : Obligations.DetectChoosesFormat := by
  refine ⟨onlyWord_encode (i := .detect) rfl, fun s => ?_⟩
  change Host.Outcome.next (detectBody s).finish = _
  by_cases hlow : s.inLen.toNat < 86
  · rw [if_pos hlow, detectBody_of_lt hlow]
    rfl
  rw [if_neg hlow]
  by_cases hshort : s.inLen.toNat ≤ 255
  · rw [if_pos hshort, detectBody_of_selectsFormat (f := .short) ⟨Nat.not_lt.mp hlow, hshort⟩]
    rfl
  · rw [if_neg hshort, detectBody_of_selectsFormat (f := .long) (Nat.not_le.mp hshort)]
    rfl

/-! ### GCHECK and FSYND (R164, R165) -/

/-- GCHECK passes in every state of its candidate, or raises one code in every such state; REM is its only write. -/
theorem gcheckBody_cases (c : Config) (f : Fmt) (tel : BitVec 1023) : ∃ rem,
    (∀ s : State, s.tel = tel → gcheckBody c f s = .ok { enter .checkSyndrome s with rem := rem }) ∨
    ∃ code, (code = .divz ∨ code = .synErr) ∧ ∀ s : State, s.tel = tel →
      gcheckBody c f s = .raised code .checkSyndrome { enter .checkSyndrome s with rem := rem } := by
  refine ⟨BitVec.ofNat 96 (polyMod (telPoly f tel) (c.gPoly f)).1, ?_⟩
  by_cases hdivz : (polyMod (telPoly f tel) (c.gPoly f)).2 = true
  · exact .inr ⟨.divz, .inl rfl, by rintro s rfl; exact if_pos hdivz⟩
  by_cases hsyn : (polyMod (telPoly f tel) (c.gPoly f)).1 ≠ 0
  · exact .inr ⟨.synErr, .inr rfl, by rintro s rfl; exact (if_neg hdivz).trans (if_pos hsyn)⟩
  · exact .inl (by rintro s rfl; exact (if_neg hdivz).trans (if_neg hsyn))

/-- FSYND passes in every state of its candidate, or raises DIVZ in every such state; SYND is its only write. -/
theorem fsyndBody_cases (c : Config) (f : Fmt) (tel : BitVec 1023) :
    (∃ synd, ∀ s : State, s.tel = tel → fsyndBody c f s = .ok { enter .checkSyndrome s with synd := synd }) ∨
    ∀ s : State, s.tel = tel → fsyndBody c f s = .raised .divz .checkSyndrome (enter .checkSyndrome s) := by
  by_cases hdivz : (polyMod (telPoly f tel) (c.fPoly f)).2 = true
  · exact .inr (by rintro s rfl; exact if_pos hdivz)
  · exact .inl ⟨BitVec.ofNat 16 (polyMod (telPoly f tel) (c.fPoly f)).1, by rintro s rfl; exact if_neg hdivz⟩

/-! ### SUBST (R167) -/

/-- SUBST has no shift for the syndrome: LONG's syndrome 0, an INVALID entry, or an entry of N or more. -/
def NoShift (c : Config) (f : Fmt) (synd : BitVec 16) : Prop :=
  (f = .long ∧ synd = 0) ∨ c.synIdx f synd = none ∨ ∃ e, c.synIdx f synd = some e ∧ f.N ≤ e

theorem substBody_of_noShift {c : Config} {f : Fmt} {s : State} (h : NoShift c f s.synd) :
    substBody c f s = .raised .subErr .substitute (enter .substitute s) := by
  unfold substBody
  by_cases hzero : f = .long ∧ s.synd = 0
  · simp only [if_pos hzero]
  · rcases h with hzero' | hnone | ⟨e, hsome, he⟩
    · exact absurd hzero' hzero
    · simp only [if_neg hzero, hnone]
    · simp only [if_neg hzero, hsome, if_pos he]

/-- SUBST raises in every state of its syndrome, or shifts in every such state. -/
theorem substBody_cases (c : Config) (f : Fmt) (synd : BitVec 16) :
    (∀ s : State, s.synd = synd → substBody c f s = .raised .subErr .substitute (enter .substitute s)) ∨
    ∃ e, ∀ s : State, s.synd = synd →
      substBody c f s = .ok { enter .substitute s with shift := BitVec.ofNat 11 e, tel := realign f s.tel e } := by
  by_cases h : NoShift c f synd
  · exact .inl fun s hs => substBody_of_noShift (hs ▸ h)
  · simp only [NoShift, not_or, not_and, not_exists, not_le] at h
    obtain ⟨hlong, hnone, hlt⟩ := h
    obtain ⟨e, he⟩ := Option.ne_none_iff_exists'.mp hnone
    exact .inr ⟨e, fun s hs => substBody_eq_ok (hs ▸ hlong) (hs ▸ he) (hlt e he)⟩

/-- Settles O30: the three ways to have no shift, and the rotation by the shift. -/
theorem substRealigns : Obligations.SubstRealigns := by
  refine stepCommand_of_body (onlyWord_encode (i := .subst) rfl) (fun _ => rfl) fun f s hexec => ?_
  have hraise (h : NoShift Config.chip f s.synd) : exec .subst s = .next (endedBy .subErr .substitute s) := by
    rw [hexec, substBody_of_noShift h, finish_raised_enter]
  split
  next hzero => exact hraise (.inl hzero)
  next hzero =>
    split
    next hnone => exact hraise (.inr (.inl hnone))
    next e hsome =>
      split
      next he => exact hraise (.inr (.inr ⟨e, hsome, he⟩))
      next he =>
        have hlt : e < 2 ^ 11 := by have := (Fmt.words_fit f).2.2.2.2; omega
        refine ⟨realign f s.tel e, BitVec.ofNat 11 e, ?_, ?_, bitAt_realign f s.tel e⟩
        · rw [hexec, substBody_eq_ok (fun hf hs => hzero ⟨hf, hs⟩) hsome (Nat.not_le.mp he)]
          rfl
        · rw [BitVec.toNat_ofNat, Nat.mod_eq_of_lt hlt]

/-! ### VALID (R168) -/

/-- What VALID writes before its test. -/
def extracted (c : Config) (f : Fmt) (s : State) : State :=
  { s with
    ctrlbits := controlBits f s.tel ++ BitVec.ofBool (inversionBit f s.tel), sb := slice s.tel (f.N - 107) 12,
    wbuf := contract c f s.tel, dwcount := BitVec.ofNat 7 (contractCount c f s.tel) }

/-- VALID's three conditions. -/
def PassesValid (c : Config) (f : Fmt) (tel : BitVec 1023) : Prop :=
  contractCount c f tel = f.K ∧ inversionBit f tel = false ∧ controlBits f tel = 1

theorem validBody_of_passes {c : Config} {f : Fmt} {s : State} (h : PassesValid c f s.tel) :
    validBody c f s = .ok (enter .validateControl (extracted c f s)) := by
  obtain ⟨hcount, hinv, hctrl⟩ := h
  have hpass : ¬(contractCount c f s.tel ≠ f.K ∨ inversionBit f s.tel = true ∨ controlBits f s.tel ≠ 1) := by
    simp [hcount, hinv, hctrl]
  exact if_neg hpass

theorem validBody_of_not_passes {c : Config} {f : Fmt} {s : State} (h : ¬PassesValid c f s.tel) :
    validBody c f s = .raised .ctrlErr .validateControl (enter .validateControl (extracted c f s)) := by
  have hfail : contractCount c f s.tel ≠ f.K ∨ inversionBit f s.tel = true ∨ controlBits f s.tel ≠ 1 := by
    simpa only [PassesValid, not_and_or, Bool.not_eq_false] using h
  exact if_pos hfail

/-- VALID ends OK or with CTRL_ERR, on what it extracted. -/
theorem validBody_cases (c : Config) (f : Fmt) (s : State) :
    (PassesValid c f s.tel ∧ validBody c f s = .ok (enter .validateControl (extracted c f s))) ∨
    (¬PassesValid c f s.tel ∧
      validBody c f s = .raised .ctrlErr .validateControl (enter .validateControl (extracted c f s))) := by
  by_cases h : PassesValid c f s.tel
  · exact .inl ⟨h, validBody_of_passes h⟩
  · exact .inr ⟨h, validBody_of_not_passes h⟩

/-- The control bits are 01 when they are 0 and 1. -/
theorem controlBits_eq_one_iff (f : Fmt) (tel : BitVec 1023) :
    controlBits f tel = 1 ↔ bitAt tel (f.N - 109) = false ∧ bitAt tel (f.N - 108) = true := by
  have hN : f.N - 109 + 2 ≤ 1023 ∧ f.N - 109 + 1 = f.N - 108 := by cases f <;> decide
  have hfirst : bitAt (controlBits f tel) 0 = bitAt tel (f.N - 109) := bitAt_slice tel (by decide) hN.1
  have hsecond : bitAt (controlBits f tel) 1 = bitAt tel (f.N - 108) := by
    rw [← hN.2]
    exact bitAt_slice tel (by decide) hN.1
  rw [← hfirst, ← hsecond]
  generalize controlBits f tel = bits
  revert bits
  decide

/-- CTRLBITS holds the control bits and then the inversion bit (10_state.md R48). -/
theorem ctrlbits_eq_packBits (f : Fmt) (tel : BitVec 1023) :
    controlBits f tel ++ BitVec.ofBool (inversionBit f tel) =
      packBits 3 fun i => bitAt tel (if i = 2 then f.N - 110 else f.N - 109 + i) := by
  have hN := (Fmt.words_fit f).2.2.2
  refine eq_of_bitAt fun i hi => ?_
  rw [bitAt_append, bitAt_packBits _ hi]
  by_cases h2 : i < 2
  · rw [if_pos h2, if_neg (by omega), controlBits, bitAt_slice _ h2 (by omega)]
  · obtain rfl : i = 2 := by omega
    rw [if_neg (by decide), if_pos rfl, ← inversionBit]
    cases inversionBit f tel <;> rfl

/-- Settles O31: Contract word by word, and the test by its three conditions. -/
theorem validExtractsAndTests : Obligations.ValidExtractsAndTests := by
  refine stepCommand_of_body (onlyWord_encode (i := .valid) rfl) (fun _ => rfl) fun f s hexec => ?_
  have hN : 10 * f.K ≤ 830 ∧ f.N - 107 + 12 ≤ 1023 := by cases f <;> decide
  have hpasses : PassesValid Config.chip f s.tel ↔ contractCount Config.chip f s.tel = f.K ∧
      bitAt s.tel (f.N - 110) = false ∧ bitAt s.tel (f.N - 109) = false ∧ bitAt s.tel (f.N - 108) = true :=
    and_congr_right' (and_congr_right' (controlBits_eq_one_iff f s.tel))
  refine ⟨contract Config.chip f s.tel, contractCount Config.chip f s.tel, extracted Config.chip f s,
    fun j hj => ?_, fun i => contract_tail _ f s.tel, ?_, ?_, ?_⟩
  · rw [word10_eq_slice _ (by omega), contract_word _ f s.tel hj, contractLane, slice_eq_block s.tel hj]
  · refine List.countP_congr fun j hj => ?_
    rw [validWord, slice_eq_block s.tel (List.mem_range.mp hj)]
  · rw [extracted, ctrlbits_eq_packBits, slice_eq_packBits _ hN.2]
  · obtain ⟨hpass, h⟩ | ⟨hfail, h⟩ := validBody_cases Config.chip f s
    · obtain ⟨hcount, hinv, hzero, hone⟩ := hpasses.mp hpass
      exact .inl ⟨hcount, hinv, hzero, hone, by rw [hexec, h, finish_ok_enter]⟩
    · exact .inr ⟨mt hpasses.mpr hfail, by rw [hexec, h, finish_raised_enter]⟩

/-! ### INVERT (R170) -/

/-- The candidate complemented, as INVERT writes it. -/
def complemented (f : Fmt) (tel : BitVec 1023) : BitVec 1023 := padTo 1023 (~~~(candidate f tel))

/-- The state INVERT leaves. -/
def inverted (f : Fmt) (s : State) : State := { enter .invert s with tel := complemented f s.tel, invused := true }

@[simp] theorem inverted_tel (f : Fmt) (s : State) : (inverted f s).tel = complemented f s.tel := rfl
@[simp] theorem inverted_shift (f : Fmt) (s : State) : (inverted f s).shift = s.shift := rfl
@[simp] theorem inverted_invused (f : Fmt) (s : State) : (inverted f s).invused = true := rfl

theorem invertBody_eq_ok (f : Fmt) (s : State) : invertBody f s = .ok (inverted f s) := rfl

theorem bitAt_complemented (f : Fmt) (tel : BitVec 1023) (j : Nat) :
    bitAt (complemented f tel) j = if j < f.N then !bitAt tel j else false := by
  rw [complemented, bitAt_padTo _ (Fmt.words_fit f).2.2.2.2]
  by_cases hj : j < f.N
  · rw [if_pos hj, bitAt_not _ hj, bitAt_candidate f tel hj]
  · rw [if_neg hj, bitAt_of_le _ (Nat.not_lt.mp hj)]

/-- Settles O32. -/
theorem invertComplements : Obligations.InvertComplements :=
  stepCommand_of_body (onlyWord_encode (i := .invert) rfl) (fun _ => rfl) fun f s hexec =>
    ⟨complemented f s.tel, hexec, bitAt_complemented f s.tel⟩

/-! ### FINAL (R174) -/

/-- The payload FINAL writes. -/
def finalPayload (f : Fmt) (w : BitVec 830) : BitVec 832 :=
  place (padTo 832 (slice w 0 f.M)) 0 (BitVec.ofNat 10 (uncheckedFirst f w))

theorem finalBody_eq_ok (f : Fmt) (s : State) :
    finalBody f s = .ok { enter .finalize s with ubuf := finalPayload f s.wbuf, outNibs := BitVec.ofNat 9 f.UN } := rfl

/-- The first word with the checksum undone is w[0] − S mod 1024, S the sum of the other words. -/
theorem uncheckedFirst_add_otherWords (f : Fmt) (w : BitVec 830) :
    uncheckedFirst f w < 1024 ∧ (uncheckedFirst f w + otherWords f w) % 1024 = wordAt w 0 := by
  have hfirst := wordAt_lt w 0
  have hsum : ((List.range (f.K - 1)).map fun j => wordAt w (j + 1)).sum = otherWords f w := rfl
  rw [uncheckedFirst, hsum]
  split <;> omega

theorem toNat_word10_eq_wordAt (w : BitVec 830) {j : Nat} (hj : j < 83) : (word10 w j).toNat = wordAt w j := by
  rw [word10_eq_slice w (by omega), wordAt]

theorem toNat_word10_finalPayload (f : Fmt) (w : BitVec 830) : (word10 (finalPayload f w) 0).toNat = uncheckedFirst f w := by
  rw [word10_eq_slice _ (by decide), finalPayload, slice_place_same _ _ (by decide), BitVec.toNat_ofNat]
  exact Nat.mod_eq_of_lt (uncheckedFirst_add_otherWords f w).1

theorem bitAt_finalPayload (f : Fmt) (w : BitVec 830) {i : Nat} (hi : 10 ≤ i) :
    bitAt (finalPayload f w) i = if i < f.M then bitAt w i else false := by
  have hM : f.M ≤ 830 := by cases f <;> decide
  rw [finalPayload, bitAt_place _ _ (by decide), if_neg (by omega), bitAt_zero_padded w hM (by omega)]

/-- Settles O34: the first word's congruence, and the bits behind it. -/
theorem finalUndoesChecksum : Obligations.FinalUndoesChecksum := by
  refine stepCommand_of_body (onlyWord_encode (i := .final) rfl) (fun _ => rfl) fun f s hexec => ?_
  have hsizes : f.K ≤ 83 ∧ 10 ≤ f.M := by cases f <;> decide
  have hothers : ((List.range (f.K - 1)).map fun j => (word10 s.wbuf (j + 1)).toNat).sum = otherWords f s.wbuf := by
    refine congrArg List.sum (List.map_congr_left fun j hj => ?_)
    have := List.mem_range.mp hj
    exact toNat_word10_eq_wordAt s.wbuf (by omega)
  refine ⟨finalPayload f s.wbuf, ?_, ?_, fun i hi hM => ?_, fun i hM => ?_⟩
  · rw [hexec, finalBody_eq_ok]
    cases f <;> rfl
  · rw [hothers, toNat_word10_finalPayload, toNat_word10_eq_wordAt _ (by decide)]
    exact (uncheckedFirst_add_otherWords f s.wbuf).2
  · rw [bitAt_finalPayload f _ hi, if_pos hM]
  · rw [bitAt_finalPayload f _ (by omega), if_neg (Nat.not_lt.mpr hM)]

end Sys2Proof.Machine
end

section
/-! PROOFS. DECODE (41_decode.md R160) of a complemented telegram, and as its step commands one after another. -/

namespace Sys2Proof.Machine

open Claims Polynomial

/-! ### The complement of a telegram -/

/-- Complementing the candidate adds the word of N ones (00_scope.md R15). -/
theorem telPoly_of_complement {f : Fmt} {tel inv : BitVec 1023} (h : ∀ j < f.N, bitAt inv j = !bitAt tel j) :
    telPoly f inv = telPoly f tel ^^^ (2 ^ f.N - 1) := by
  refine Nat.eq_of_testBit_eq fun k => ?_
  rw [Nat.testBit_xor, testBit_telPoly, testBit_telPoly, Nat.testBit_two_pow_sub_one]
  by_cases hk : k < f.N
  · rw [h _ (by omega)]
    simp [hk]
  · simp [hk]

/-- A divisor of fg and of the word of N ones leaves of the complemented telegram what it leaves of g. -/
theorem polyMod_of_complement {c : Config} (wf : c.WellFormed) {f : Fmt} (hf : 2 ≤ c.fPoly f) (hg : c.gPoly f ≠ 0) (s : State)
    {inv : BitVec 1023} {p q : Nat} (hinv : ∀ j < f.N, bitAt inv j = !bitAt (builtTelegram c f s) j)
    (hp : gf2 p ∣ gf2 (c.fgPoly f)) (hones : clmul q p = 2 ^ f.N - 1) :
    polyMod (telPoly f inv) p = polyMod (c.gPoly f) p := by
  have hdvd : gf2 p ∣ gf2 (2 ^ f.N - 1) := by
    rw [← hones, gf2_clmul]
    exact dvd_mul_left _ _
  have hbuilt := hp.trans (builtTelegram_congr_gPoly wf hf hg s)
  refine polyMod_congr ?_
  rw [telPoly_of_complement hinv, gf2_xor, add_sub_right_comm]
  exact dvd_add hbuilt hdvd

theorem complemented_of_complement {f : Fmt} {tel inv : BitVec 1023} (h : ∀ j < f.N, bitAt inv j = !bitAt tel j)
    (htail : ∀ i, f.N ≤ i → bitAt tel i = false) : complemented f inv = tel := by
  refine eq_of_bitAt fun i _ => ?_
  rw [bitAt_complemented]
  by_cases hi : i < f.N
  · rw [if_pos hi, h i hi, Bool.not_not]
  · rw [if_neg hi, htail i (Nat.not_lt.mp hi)]

/-- Realigning by 0 only clears what stands behind the candidate. -/
theorem bitAt_realign_zero {f : Fmt} (tel : BitVec 1023) {i : Nat} (hi : i < f.N) : bitAt (realign f tel 0) i = bitAt tel i := by
  rw [bitAt_realign, if_pos hi, Nat.add_zero, Nat.mod_eq_of_lt hi]

@[simp] theorem extracted_tel (c : Config) (f : Fmt) (s : State) : (extracted c f s).tel = s.tel := by rw [extracted]
@[simp] theorem extracted_shift (c : Config) (f : Fmt) (s : State) : (extracted c f s).shift = s.shift := by rw [extracted]
@[simp] theorem extracted_format (c : Config) (f : Fmt) (s : State) : (extracted c f s).format = s.format := by rw [extracted]

/-- The state in which DECODE tries VALID again: after VALID's writes and INVERT (R171). -/
def afterInversion (c : Config) (f : Fmt) (s : State) : State :=
  inverted f (enter .validateControl (extracted c f s))

theorem afterInversion_tel (c : Config) (f : Fmt) (s : State) : (afterInversion c f s).tel = complemented f s.tel := by
  rw [afterInversion, inverted_tel, enter_tel, extracted_tel]

theorem afterInversion_shift (c : Config) (f : Fmt) (s : State) : (afterInversion c f s).shift = s.shift := by
  rw [afterInversion, inverted_shift, enter_shift, extracted_shift]

theorem afterInversion_invused (c : Config) (f : Fmt) (s : State) : (afterInversion c f s).invused = true := by
  rw [afterInversion, inverted_invused]

/-- A candidate that VALID refuses is inverted and tried again (R160, R171). -/
theorem validWithRetry_of_not_passes {c : Config} {f : Fmt} {s : State} (h : ¬PassesValid c f s.tel) :
    validWithRetry c f s = validBody c f (afterInversion c f s) := by
  rw [validWithRetry, validBody_of_not_passes h, catching_raised, if_pos rfl, invertBody_eq_ok, andThen_ok, afterInversion]

/-- The complement of the built telegram is inverted once, and then decodes as the telegram does. -/
theorem payloadSteps_complement {c : Config} (wf : c.WellFormed) {f : Fmt} {s t u : State} (ht : t.tel = builtTelegram c f s)
    (hu : ∀ j < f.N, bitAt u.tel j = !bitAt (builtTelegram c f s) j) :
    ∃ v, payloadSteps c f u = .ok v ∧ DecodedAs f s t v u.shift.toNat true := by
  have hrefused : ¬PassesValid c f u.tel := by
    rintro ⟨-, hinv, -⟩
    have hbit := inversionBit_builtTelegram c f s
    have hN : f.N - 110 < f.N := by cases f <;> decide
    rw [inversionBit] at hinv hbit
    rw [hu _ hN, hbit] at hinv
    cases hinv
  have htel : (afterInversion c f u).tel = builtTelegram c f s := by
    rw [afterInversion_tel, complemented_of_complement hu fun i hi => bitAt_builtTelegram_of_le c f s hi]
  have hretry : validWithRetry c f u = validWithRetry c f (afterInversion c f u) := by
    rw [validWithRetry_of_not_passes hrefused, validWithRetry, validBody_builtTelegram wf htel, catching_ok]
  obtain ⟨v, hv, hdec⟩ := payloadSteps_builtTelegram wf ht htel
  rw [afterInversion_shift, afterInversion_invused] at hdec
  exact ⟨v, by rw [← hv, payloadSteps, payloadSteps, hretry], hdec⟩

/-- Settles O52: f and g divide the word of ones, so the complement has the telegram's own syndrome and shift; VALID refuses its
inversion bit, and after INVERT the telegram itself is there. -/
theorem invertedTelegramDecodes : Obligations.InvertedTelegramDecodes := by
  intro c f s wf hf hg ⟨qg, hqg⟩ ⟨qf, hqf⟩ hlong hidx
  have hf0 : c.fPoly f ≠ 0 := by omega
  have hprod : gf2 (c.fgPoly f) = gf2 (c.fPoly f) * gf2 (c.gPoly f) := by rw [wf.product, gf2_clmul]
  obtain ⟨t, hbuilds, ht⟩ := builds_builtTelegram wf hf hg s
  refine ⟨t, hbuilds, fun d hlen hbits => ?_⟩
  have hinv : ∀ j < f.N, bitAt (tailWindow f d.ibuf) j = !bitAt (builtTelegram c f s) j := fun j hj => by
    rw [bitAt_tailWindow f _ hj, hbits j hj, ht]
  have hgcheck : polyMod (telPoly f (tailWindow f d.ibuf)) (c.gPoly f) = (0, false) := by
    rw [polyMod_of_complement wf hf hg s hinv (Dvd.intro_left _ hprod.symm) hqg]
    exact polyMod_of_dvd hg dvd_rfl
  have hfsynd : polyMod (telPoly f (tailWindow f d.ibuf)) (c.fPoly f) = ((polyMod (c.gPoly f) (c.fPoly f)).1, false) := by
    rw [polyMod_of_complement wf hf hg s hinv (Dvd.intro _ hprod.symm) hqf]
    exact Prod.ext rfl (polyMod_snd _ hf0)
  obtain ⟨u, hdecode, htel, hshift, -⟩ := decodeBody_of_syndrome hlen hgcheck hfsynd
    (fun h => syndrome_ne_zero wf hf0 _ (hlong h)) hidx (by cases f <;> decide)
  obtain ⟨v, hv, hdec⟩ := payloadSteps_complement wf ht (u := u) fun j hj => by
    rw [htel, bitAt_realign_zero _ hj, hinv j hj]
  rw [hshift] at hdec
  exact ⟨v, hdecode.trans hv, hdec⟩

/-! ### A sequence of bodies and the list of its step commands -/

/-- The state without what the end of a command writes (60_exceptions.md R244, R245): the part that bodies read. -/
def State.inner (s : State) : State :=
  { s with resultCode := .ok, resultStage := .idle, seq := .idle, pend := none, busy := false, done := false }

theorem complete_inner (s : State) : (complete s).inner = s.inner := rfl

theorem raise_inner (code : ResultCode) (stage : SeqState) (s : State) : (raise code stage s).inner = s.inner := rfl

/-- A step body after DETECT: it does not see how the command before it ended, keeps FORMAT, and raises only failures. -/
structure StepBody (body : State → BodyResult) : Prop where
  inner : ∀ s, (body s.inner).finish = (body s).finish
  format : ∀ s, (body s).state.format = s.format
  raisesFailure : ∀ s, (body s).RaisesFailure

theorem StepBody.finish_congr {body : State → BodyResult} (h : StepBody body) {s t : State} (hst : t.inner = s.inner) :
    (body t).finish = (body s).finish := by
  rw [← h.inner t, hst, h.inner s]

theorem windowBody_stepBody (f : Fmt) : StepBody (windowBody f) :=
  ⟨fun _ => rfl, fun _ => rfl, fun s => (windowBody_keeps f s).raisesFailure⟩

theorem gcheckBody_stepBody (c : Config) (f : Fmt) : StepBody (gcheckBody c f) := by
  refine ⟨fun s => ?_, fun s => ?_, fun s => (gcheckBody_keeps c f s).raisesFailure⟩
  · obtain ⟨rem, h | ⟨code, -, h⟩⟩ := gcheckBody_cases c f s.tel <;> rw [h s rfl, h s.inner rfl] <;> rfl
  · obtain ⟨rem, h | ⟨code, -, h⟩⟩ := gcheckBody_cases c f s.tel <;> rw [h s rfl] <;> rfl

theorem fsyndBody_stepBody (c : Config) (f : Fmt) : StepBody (fsyndBody c f) := by
  refine ⟨fun s => ?_, fun s => ?_, fun s => (fsyndBody_keeps c f s).raisesFailure⟩
  · obtain ⟨synd, h⟩ | h := fsyndBody_cases c f s.tel <;> rw [h s rfl, h s.inner rfl] <;> rfl
  · obtain ⟨synd, h⟩ | h := fsyndBody_cases c f s.tel <;> rw [h s rfl] <;> rfl

theorem substBody_stepBody (c : Config) (f : Fmt) : StepBody (substBody c f) := by
  refine ⟨fun s => ?_, fun s => ?_, fun s => (substBody_keeps c f s).raisesFailure⟩
  · obtain h | ⟨e, h⟩ := substBody_cases c f s.synd <;> rw [h s rfl, h s.inner rfl] <;> rfl
  · obtain h | ⟨e, h⟩ := substBody_cases c f s.synd <;> rw [h s rfl] <;> rfl

theorem validBody_stepBody (c : Config) (f : Fmt) : StepBody (validBody c f) := by
  refine ⟨fun s => ?_, fun s => ?_, fun s => (validBody_keeps c f s).raisesFailure⟩
  · obtain ⟨hpass, h⟩ | ⟨hfail, h⟩ := validBody_cases c f s
    · rw [h, validBody_of_passes (s := s.inner) hpass]
      rfl
    · rw [h, validBody_of_not_passes (s := s.inner) hfail]
      rfl
  · obtain ⟨-, h⟩ | ⟨-, h⟩ := validBody_cases c f s <;> simp [h]

theorem invertBody_stepBody (f : Fmt) : StepBody (invertBody f) :=
  ⟨fun _ => rfl, fun _ => rfl, fun s => (invertBody_keeps f s).raisesFailure⟩

theorem descrBody_stepBody (c : Config) (f : Fmt) : StepBody (descrBody c f) :=
  ⟨fun _ => rfl, fun _ => rfl, fun s => (descrBody_keeps c f s).raisesFailure⟩

theorem finalBody_stepBody (f : Fmt) : StepBody (finalBody f) :=
  ⟨fun _ => rfl, fun _ => rfl, fun s => (finalBody_keeps f s).raisesFailure⟩

/-- Issuing the commands of the list does what the body does, in the format f and however the command before ended. -/
def IssuedAs (f : Fmt) (is : List Instr) (body : State → BodyResult) : Prop :=
  ∀ s t : State, s.format = some f → t.inner = s.inner → runSteps is t = (body s).finish

theorem runSteps_cons {i : Instr} {t u : State} (h : exec i t = .next u) (is : List Instr) :
    runSteps (i :: is) t = if u.resultCode = .ok then runSteps is u else u := by
  simp only [runSteps, h]

/-- A step command runs its body, in the format the state holds (30_encoding.md R106). -/
theorem exec_of_stepBody {i : Instr} {own : SeqState} {body : Fmt → State → BodyResult} {f : Fmt}
    (hexec : ∀ s, exec i s = .next (withFormat own body s).finish) (h : StepBody (body f)) {s t : State}
    (hf : s.format = some f) (hst : t.inner = s.inner) : exec i t = .next (body f s).finish := by
  have hft : t.format = some f := (congrArg State.format hst).trans hf
  rw [hexec, withFormat_some hft, h.finish_congr hst]

theorem IssuedAs.last {i : Instr} {own : SeqState} {body : Fmt → State → BodyResult} {f : Fmt}
    (hexec : ∀ s, exec i s = .next (withFormat own body s).finish) (h : StepBody (body f)) : IssuedAs f [i] (body f) := by
  intro s t hf hst
  rw [runSteps_cons (exec_of_stepBody hexec h hf hst), runSteps, ite_self]

/-- A step command before a sequence: it raises and the sequence stops, or the next command starts where it completed. -/
theorem IssuedAs.cons {i : Instr} {own : SeqState} {body : Fmt → State → BodyResult} {f : Fmt} {is : List Instr}
    {rest : State → BodyResult} (hexec : ∀ s, exec i s = .next (withFormat own body s).finish) (h : StepBody (body f))
    (hrest : IssuedAs f is rest) : IssuedAs f (i :: is) fun s => (body f s).andThen rest := by
  intro s t hf hst
  rw [runSteps_cons (exec_of_stepBody hexec h hf hst)]
  change _ = ((body f s).andThen rest).finish
  have hformat := h.format s
  have hfail := h.raisesFailure s
  cases hbody : body f s with
  | ok u =>
    rw [hbody] at hformat
    exact (if_pos rfl).trans (hrest u (complete u) (hformat.trans hf) rfl)
  | raised code stage u =>
    rw [hbody] at hfail
    exact if_neg hfail.1

/-! ### DECODE as its steps -/

/-- DECODE after DETECT, up to SUBST. -/
def syndromeSteps (c : Config) (f : Fmt) (s : State) : BodyResult :=
  (windowBody f s).andThen fun s => (gcheckBody c f s).andThen fun s => (fsyndBody c f s).andThen (substBody c f)

theorem decodeRest_eq (c : Config) (f : Fmt) (s : State) :
    decodeRest c f s = (syndromeSteps c f s).andThen (payloadSteps c f) := by
  simp only [syndromeSteps, andThen_assoc]
  rfl

theorem issued_syndromeSteps_valid (f : Fmt) : IssuedAs f [.window, .gcheck, .fsynd, .subst, .valid]
    fun s => (syndromeSteps Config.chip f s).andThen (validBody Config.chip f) := by
  simp only [syndromeSteps, andThen_assoc]
  exact .cons (fun _ => rfl) (windowBody_stepBody f) <| .cons (fun _ => rfl) (gcheckBody_stepBody _ f) <|
    .cons (fun _ => rfl) (fsyndBody_stepBody _ f) <| .cons (fun _ => rfl) (substBody_stepBody _ f) <|
    .last (fun _ => rfl) (validBody_stepBody _ f)

theorem issued_descr_final (f : Fmt) :
    IssuedAs f [.descr, .final] fun s => (descrBody Config.chip f s).andThen (finalBody f) :=
  .cons (fun _ => rfl) (descrBody_stepBody _ f) (.last (fun _ => rfl) (finalBody_stepBody f))

theorem issued_invert_to_final (f : Fmt) : IssuedAs f [.invert, .valid, .descr, .final] fun s =>
    (invertBody f s).andThen fun s => (validBody Config.chip f s).andThen fun s =>
      (descrBody Config.chip f s).andThen (finalBody f) :=
  .cons (fun _ => rfl) (invertBody_stepBody f) (.cons (fun _ => rfl) (validBody_stepBody _ f) (issued_descr_final f))

/-- A raise that neither says OK nor is caught by DECODE (R160). -/
def BodyResult.RaisesUncaught : BodyResult → Prop
  | .ok _ => True
  | .raised code _ _ => code ≠ .ok ∧ code ≠ .ctrlErr

theorem BodyResult.RaisesUncaught.andThen {r : BodyResult} (h : r.RaisesUncaught) {next : State → BodyResult}
    (k : ∀ s, (next s).RaisesUncaught) : (r.andThen next).RaisesUncaught := by
  cases r with
  | ok s => exact k s
  | raised code stage s => exact h

theorem gcheckBody_raisesUncaught (c : Config) (f : Fmt) (s : State) : (gcheckBody c f s).RaisesUncaught := by
  obtain ⟨rem, h | ⟨code, rfl | rfl, h⟩⟩ := gcheckBody_cases c f s.tel <;> rw [h s rfl]
  · trivial
  · exact ⟨by decide, by decide⟩
  · exact ⟨by decide, by decide⟩

theorem fsyndBody_raisesUncaught (c : Config) (f : Fmt) (s : State) : (fsyndBody c f s).RaisesUncaught := by
  obtain ⟨synd, h⟩ | h := fsyndBody_cases c f s.tel <;> rw [h s rfl]
  · trivial
  · exact ⟨by decide, by decide⟩

theorem substBody_raisesUncaught (c : Config) (f : Fmt) (s : State) : (substBody c f s).RaisesUncaught := by
  obtain h | ⟨e, h⟩ := substBody_cases c f s.synd <;> rw [h s rfl]
  · exact ⟨by decide, by decide⟩
  · trivial

/-- Up to SUBST no step raises CTRL_ERR, the one code DECODE catches. -/
theorem syndromeSteps_raisesUncaught (c : Config) (f : Fmt) (s : State) : (syndromeSteps c f s).RaisesUncaught :=
  .andThen (r := windowBody f s) trivial fun s =>
  (gcheckBody_raisesUncaught c f s).andThen fun s =>
  (fsyndBody_raisesUncaught c f s).andThen (substBody_raisesUncaught c f)

theorem format_andThen {r : BodyResult} {fmt : Option Fmt} {next : State → BodyResult} (h : r.state.format = fmt)
    (k : ∀ s, (next s).state.format = s.format) : (r.andThen next).state.format = fmt := by
  cases r with
  | ok s => exact (k s).trans h
  | raised code stage s => exact h

theorem syndromeSteps_format (c : Config) (f : Fmt) (s : State) : (syndromeSteps c f s).state.format = s.format :=
  format_andThen ((windowBody_stepBody f).format s) fun s =>
  format_andThen ((gcheckBody_stepBody c f).format s) fun s =>
  format_andThen ((fsyndBody_stepBody c f).format s) (substBody_stepBody c f).format

/-- DETECT raises FMT_ERR, or has chosen a format. -/
theorem detectBody_cases (s : State) :
    (∃ u, detectBody s = .raised .fmtErr .detectFormat u) ∨ ∃ u f, detectBody s = .ok u ∧ u.format = some f := by
  by_cases hlow : s.inLen.toNat < 86
  · exact .inl ⟨_, detectBody_of_lt hlow⟩
  by_cases hshort : s.inLen.toNat ≤ 255
  · exact .inr ⟨_, .short, detectBody_of_selectsFormat (f := .short) ⟨Nat.not_lt.mp hlow, hshort⟩, rfl⟩
  · exact .inr ⟨_, .long, detectBody_of_selectsFormat (f := .long) (Nat.not_le.mp hshort), rfl⟩

/-- The end of the host's steps, from where they ended up to VALID. -/
def continueSteps (u : State) : State :=
  if u.resultCode = .ok then runSteps [.descr, .final] u
  else if u.resultCode = .ctrlErr then runSteps [.invert, .valid, .descr, .final] u
  else u

theorem decodeBySteps_eq (s : State) : decodeBySteps s =
    continueSteps (runSteps [.detect, .window, .gcheck, .fsynd, .subst, .valid] { s with outNibs := 0, invused := false }) := rfl

theorem continueSteps_of_uncaught {u : State} (hok : u.resultCode ≠ .ok) (hctrl : u.resultCode ≠ .ctrlErr) :
    continueSteps u = u := by
  rw [continueSteps, if_neg hok, if_neg hctrl]

/-- VALID's two ends: the payload follows, or the one inversion. -/
theorem continueSteps_valid {f : Fmt} {s : State} (hf : s.format = some f) :
    continueSteps (validBody Config.chip f s).finish = (payloadSteps Config.chip f s).finish := by
  have hformat : (enter .validateControl (extracted Config.chip f s)).format = some f := by
    rw [enter_format, extracted_format, hf]
  obtain ⟨-, h⟩ | ⟨-, h⟩ := validBody_cases Config.chip f s
  · rw [payloadSteps, validWithRetry, h, catching_ok, andThen_ok]
    exact issued_descr_final f _ _ hformat (complete_inner _)
  · rw [payloadSteps, validWithRetry, h, catching_raised, if_pos rfl, andThen_assoc]
    exact issued_invert_to_final f _ _ hformat (raise_inner _ _ _)

theorem continueSteps_syndromeSteps {f : Fmt} {s : State} (hf : s.format = some f) :
    continueSteps ((syndromeSteps Config.chip f s).andThen (validBody Config.chip f)).finish =
      (decodeRest Config.chip f s).finish := by
  have huncaught := syndromeSteps_raisesUncaught Config.chip f s
  have hformat := (syndromeSteps_format Config.chip f s).trans hf
  rw [decodeRest_eq]
  cases h : syndromeSteps Config.chip f s with
  | ok u =>
    rw [h] at hformat
    exact continueSteps_valid hformat
  | raised code stage u =>
    rw [h] at huncaught
    exact continueSteps_of_uncaught huncaught.1 huncaught.2

/-- Settles O35: DETECT fails or chooses the format in which the steps follow; only VALID raises what DECODE catches. -/
theorem decodeIsItsSteps : Obligations.DecodeIsItsSteps := by
  refine ⟨onlyWord_encode (i := .decode) rfl, fun s => congrArg Host.Outcome.next ?_⟩
  have hexec (t : State) : exec .detect t = .next (detectBody t).finish := rfl
  rw [decodeBySteps_eq, runSteps_cons (hexec _), decodeBody]
  obtain ⟨u, h⟩ | ⟨u, f, h, hf⟩ := detectBody_cases { s with outNibs := 0, invused := false }
  · rw [h]
    exact (continueSteps_of_uncaught (u := raise .fmtErr .detectFormat u) nofun nofun).symm
  · rw [h, andThen_ok, withFormat_some hf, ← continueSteps_syndromeSteps hf]
    exact congrArg continueSteps (issued_syndromeSteps_valid f u (complete u) hf rfl).symm

end Sys2Proof.Machine
end

section
/-! PROOFS. A command that fails writes no output buffer (41_decode.md R176, 42_encode.md R210): FINAL and EMIT, which write them,
come last and do not raise; every body before them leaves the outputs alone, ended or raised. -/

namespace Sys2Proof.Machine

/-- What the host takes as output: UBUF, TBUF and OUT_NIBS. -/
def State.outputs (s : State) := (s.ubuf, s.tbuf, s.outNibs)

/-- A body that started in s leaves the outputs as they were, ended or raised. -/
def BodyResult.LeavesOutputs (s : State) (r : BodyResult) : Prop := r.state.outputs = s.outputs

/-- If a body that started in s raised, the outputs are as they were. -/
def BodyResult.RaisesWithoutOutput (s : State) : BodyResult → Prop
  | .ok _ => True
  | .raised _ _ t => t.outputs = s.outputs

theorem BodyResult.LeavesOutputs.andThen {s : State} {r : BodyResult} (h : r.LeavesOutputs s) {next : State → BodyResult}
    (k : ∀ u, (next u).LeavesOutputs u) : (r.andThen next).LeavesOutputs s := by
  cases r with
  | ok u => exact (k u).trans h
  | raised code stage u => exact h

theorem BodyResult.LeavesOutputs.catching {s : State} {r : BodyResult} (h : r.LeavesOutputs s) (code : ResultCode)
    {handler : State → BodyResult} (k : ∀ u, (handler u).LeavesOutputs u) : (r.catching code handler).LeavesOutputs s := by
  cases r with
  | ok u => exact h
  | raised code' stage u =>
    rw [catching_raised]
    split
    · exact (k u).trans h
    · exact h

theorem BodyResult.LeavesOutputs.raises {s : State} {r : BodyResult} (h : r.LeavesOutputs s) : r.RaisesWithoutOutput s := by
  cases r with
  | ok u => trivial
  | raised code stage u => exact h

namespace BodyResult.RaisesWithoutOutput

theorem after {s t : State} {r : BodyResult} (h : r.RaisesWithoutOutput t) (hst : t.outputs = s.outputs) :
    r.RaisesWithoutOutput s := by
  cases r with
  | ok u => trivial
  | raised code stage u => exact Eq.trans h hst

/-- Before a body that writes the outputs only when it ends, others may run that leave them alone. -/
theorem andThen {s : State} {r : BodyResult} (h : r.LeavesOutputs s) {next : State → BodyResult}
    (k : ∀ u, (next u).RaisesWithoutOutput u) : (r.andThen next).RaisesWithoutOutput s := by
  cases r with
  | ok u => exact (k u).after h
  | raised code stage u => exact h

theorem catching {s : State} {r : BodyResult} (h : r.RaisesWithoutOutput s) (code : ResultCode)
    {handler : State → BodyResult} (k : ∀ u, (handler u).RaisesWithoutOutput u) :
    (r.catching code handler).RaisesWithoutOutput s := by
  cases r with
  | ok u => trivial
  | raised code' stage u =>
    rw [catching_raised]
    split
    · exact (k u).after h
    · exact h

theorem withFormat {own : SeqState} {body : Fmt → State → BodyResult} (s : State)
    (k : ∀ f u, (body f u).RaisesWithoutOutput u) : (withFormat own body s).RaisesWithoutOutput s := by
  obtain ⟨-, h⟩ | ⟨f, -, h⟩ := withFormat_cases own body s
  · rw [h]
    exact rfl
  · rw [h]
    exact k f s

end BodyResult.RaisesWithoutOutput

/-! ### The decoder's steps -/

theorem detectBody_leavesOutputs (s : State) : (detectBody s).LeavesOutputs s := by
  unfold detectBody
  dsimp only
  split <;> rfl

theorem windowBody_leavesOutputs (f : Fmt) (s : State) : (windowBody f s).LeavesOutputs s := rfl

theorem gcheckBody_leavesOutputs (c : Config) (f : Fmt) (s : State) : (gcheckBody c f s).LeavesOutputs s := by
  obtain ⟨rem, h | ⟨code, -, h⟩⟩ := gcheckBody_cases c f s.tel <;> rw [h s rfl] <;> rfl

theorem fsyndBody_leavesOutputs (c : Config) (f : Fmt) (s : State) : (fsyndBody c f s).LeavesOutputs s := by
  obtain ⟨synd, h⟩ | h := fsyndBody_cases c f s.tel <;> rw [h s rfl] <;> rfl

theorem substBody_leavesOutputs (c : Config) (f : Fmt) (s : State) : (substBody c f s).LeavesOutputs s := by
  obtain h | ⟨e, h⟩ := substBody_cases c f s.synd <;> rw [h s rfl] <;> rfl

theorem enter_outputs (own : SeqState) (s : State) : (enter own s).outputs = s.outputs := rfl

theorem extracted_outputs (c : Config) (f : Fmt) (s : State) : (extracted c f s).outputs = s.outputs := by
  rw [extracted, State.outputs, State.outputs]

theorem validBody_leavesOutputs (c : Config) (f : Fmt) (s : State) : (validBody c f s).LeavesOutputs s := by
  obtain ⟨-, h⟩ | ⟨-, h⟩ := validBody_cases c f s <;>
    simp only [BodyResult.LeavesOutputs, h, state_ok, state_raised, enter_outputs, extracted_outputs]

theorem invertBody_leavesOutputs (f : Fmt) (s : State) : (invertBody f s).LeavesOutputs s := rfl

theorem descrBody_leavesOutputs (c : Config) (f : Fmt) (s : State) : (descrBody c f s).LeavesOutputs s := rfl

theorem validWithRetry_leavesOutputs (c : Config) (f : Fmt) (s : State) : (validWithRetry c f s).LeavesOutputs s :=
  (validBody_leavesOutputs c f s).catching _ fun u =>
    (invertBody_leavesOutputs f u).andThen (validBody_leavesOutputs c f)

theorem finalBody_raisesWithoutOutput (f : Fmt) (s : State) : (finalBody f s).RaisesWithoutOutput s := trivial

theorem decodeRest_raisesWithoutOutput (c : Config) (f : Fmt) (s : State) : (decodeRest c f s).RaisesWithoutOutput s :=
  .andThen (windowBody_leavesOutputs f s) fun s =>
  .andThen (gcheckBody_leavesOutputs c f s) fun s =>
  .andThen (fsyndBody_leavesOutputs c f s) fun s =>
  .andThen (substBody_leavesOutputs c f s) fun s =>
  .andThen (validWithRetry_leavesOutputs c f s) fun s =>
  .andThen (descrBody_leavesOutputs c f s) (finalBody_raisesWithoutOutput f)

theorem decodeBody_raisesWithoutOutput (c : Config) (s : State) :
    (decodeBody c s).RaisesWithoutOutput { s with outNibs := 0, invused := false } :=
  .andThen (detectBody_leavesOutputs _) fun u => .withFormat u (decodeRest_raisesWithoutOutput c)

/-! ### The encoder's steps -/

theorem advanceBody_leavesOutputs (c : Config) (s : State) : (advanceBody c s).LeavesOutputs s := by
  unfold advanceBody
  obtain ⟨sb, esb, att, fst, cnd, h | h⟩ :=
    advanceLoop_cases c ((attMax - s.attempts).toNat + 1) (clearCheckConds (enter .advanceSbEsb s)) <;> rw [h] <;> rfl

theorem assembleBody_leavesOutputs (c : Config) (f : Fmt) (s : State) : (assembleBody c f s).LeavesOutputs s := by
  unfold assembleBody
  dsimp only
  split
  · rfl
  · split <;> rfl

theorem conditionBody_leavesOutputs (own : SeqState) (k : Nat) (pass : Bool) (s : State) :
    (conditionBody own k pass s).LeavesOutputs s := by
  obtain ⟨-, h⟩ | ⟨-, h⟩ := conditionBody_cases own k pass s <;> rw [h] <;> rfl

theorem prepBody_leavesOutputs (c : Config) (f : Fmt) (s : State) : (prepBody c f s).LeavesOutputs s := rfl

theorem calphaBody_leavesOutputs (c : Config) (f : Fmt) (s : State) : (calphaBody c f s).LeavesOutputs s :=
  conditionBody_leavesOutputs _ _ _ s

theorem caperBody_leavesOutputs (f : Fmt) (s : State) : (caperBody f s).LeavesOutputs s :=
  conditionBody_leavesOutputs _ _ _ s

theorem coffsBody_leavesOutputs (c : Config) (f : Fmt) (s : State) : (coffsBody c f s).LeavesOutputs s :=
  conditionBody_leavesOutputs _ _ _ s

theorem cunderBody_leavesOutputs (c : Config) (f : Fmt) (s : State) : (cunderBody c f s).LeavesOutputs s :=
  conditionBody_leavesOutputs _ _ _ s

theorem candidateBody_leavesOutputs (c : Config) (f : Fmt) (s : State) : (candidateBody c f s).LeavesOutputs s :=
  (prepBody_leavesOutputs c f s).andThen fun s =>
  (assembleBody_leavesOutputs c f s).andThen fun s =>
  (calphaBody_leavesOutputs c f s).andThen fun s =>
  (caperBody_leavesOutputs f s).andThen fun s =>
  (coffsBody_leavesOutputs c f s).andThen (cunderBody_leavesOutputs c f)

theorem emitBody_raisesWithoutOutput (f : Fmt) (s : State) : (emitBody f s).RaisesWithoutOutput s := trivial

/-- A rejected candidate leaves the outputs to the next turn as they were; only an emitted one writes them, and it ends. -/
theorem encodeLoop_raisesWithoutOutput (c : Config) (f : Fmt) (fuel : Nat) (s : State) :
    (encodeLoop c f fuel s).RaisesWithoutOutput s := by
  induction fuel generalizing s with
  | zero => exact rfl
  | succ n ih =>
    exact .andThen (advanceBody_leavesOutputs c s) fun u =>
      .catching (.andThen (candidateBody_leavesOutputs c f u) (emitBody_raisesWithoutOutput f)) _ ih

theorem encodeBody_raisesWithoutOutput (c : Config) (f : Fmt) (s : State) :
    (encodeBody c f s).RaisesWithoutOutput { s with outNibs := 0 } :=
  .andThen (r := estartBody f s) rfl (encodeLoop_raisesWithoutOutput c f _)

/-! ### Every command -/

theorem polyremBody_leavesOutputs (c : Config) (f : Fmt) (sel : BitVec 2) (s : State) :
    (polyremBody c f sel s).LeavesOutputs s := by
  unfold polyremBody
  split
  · rfl
  · unfold polyremBy
    dsimp only
    split <;> rfl

/-- The state whose outputs a failing command shows: DECODE and ENCODE begin by clearing OUT_NIBS (R160, R191). -/
def outputStart (i : Instr) (s : State) : State :=
  match i with
  | .decode | .encode _ => { s with outNibs := 0 }
  | _ => s

/-- Every command but SRESET, which does not fail, ends a body that raises without output. -/
theorem exec_raisesWithoutOutput (i : Instr) (s : State) (hsreset : i ≠ .sreset) :
    ∃ r : BodyResult, exec i s = .next r.finish ∧ r.RaisesWithoutOutput (outputStart i s) := by
  cases i with
  | sreset => exact absurd rfl hsreset
  | nop => exact ⟨nopBody s, rfl, trivial⟩
  | clrin => exact ⟨clrinBody s, rfl, trivial⟩
  | decode => exact ⟨_, rfl, decodeBody_raisesWithoutOutput _ s⟩
  | detect => exact ⟨_, rfl, (detectBody_leavesOutputs s).raises⟩
  | window => exact ⟨_, rfl, .withFormat s fun f u => (windowBody_leavesOutputs f u).raises⟩
  | gcheck => exact ⟨_, rfl, .withFormat s fun f u => (gcheckBody_leavesOutputs _ f u).raises⟩
  | fsynd => exact ⟨_, rfl, .withFormat s fun f u => (fsyndBody_leavesOutputs _ f u).raises⟩
  | subst => exact ⟨_, rfl, .withFormat s fun f u => (substBody_leavesOutputs _ f u).raises⟩
  | valid => exact ⟨_, rfl, .withFormat s fun f u => (validBody_leavesOutputs _ f u).raises⟩
  | invert => exact ⟨_, rfl, .withFormat s fun f u => (invertBody_leavesOutputs f u).raises⟩
  | descr => exact ⟨_, rfl, .withFormat s fun f u => (descrBody_leavesOutputs _ f u).raises⟩
  | final => exact ⟨_, rfl, .withFormat s finalBody_raisesWithoutOutput⟩
  | encode f => exact ⟨_, rfl, encodeBody_raisesWithoutOutput _ f s⟩
  | estart f => exact ⟨estartBody f s, rfl, trivial⟩
  | advance => exact ⟨_, rfl, .withFormat s fun _ u => (advanceBody_leavesOutputs _ u).raises⟩
  | prep => exact ⟨_, rfl, .withFormat s fun f u => (prepBody_leavesOutputs _ f u).raises⟩
  | assemble => exact ⟨_, rfl, .withFormat s fun f u => (assembleBody_leavesOutputs _ f u).raises⟩
  | calpha => exact ⟨_, rfl, .withFormat s fun f u => (calphaBody_leavesOutputs _ f u).raises⟩
  | caper => exact ⟨_, rfl, .withFormat s fun f u => (caperBody_leavesOutputs f u).raises⟩
  | coffs => exact ⟨_, rfl, .withFormat s fun f u => (coffsBody_leavesOutputs _ f u).raises⟩
  | cunder => exact ⟨_, rfl, .withFormat s fun f u => (cunderBody_leavesOutputs _ f u).raises⟩
  | emit => exact ⟨_, rfl, .withFormat s emitBody_raisesWithoutOutput⟩
  | subenc v => exact ⟨subencBody _ v s, rfl, trivial⟩
  | subdec w => exact ⟨subdecBody _ w s, rfl, trivial⟩
  | scrseed f sb => exact ⟨scrseedBody _ f sb s, rfl, trivial⟩
  | scrstep b => exact ⟨scrstepBody _ b s, rfl, trivial⟩
  | polyrem f sel => exact ⟨_, rfl, (polyremBody_leavesOutputs _ f sel s).raises⟩

/-- A command that fails leaves the outputs it started with. -/
theorem exec_outputs_of_failure {i : Instr} {s t : State} (h : exec i s = .next t) (hfail : t.resultCode ≠ .ok) :
    t.outputs = (outputStart i s).outputs := by
  by_cases hsreset : i = .sreset
  · subst hsreset
    cases h
    exact absurd rfl hfail
  obtain ⟨r, hr, hraises⟩ := exec_raisesWithoutOutput i s hsreset
  cases hr.symm.trans h
  cases r with
  | ok u => exact absurd rfl hfail
  | raised code stage u => exact hraises

theorem outputStart_buffers (i : Instr) (s : State) : (outputStart i s).ubuf = s.ubuf ∧ (outputStart i s).tbuf = s.tbuf := by
  cases i <;> exact ⟨rfl, rfl⟩

/-- Settles O13: the outputs of a failed command are those it started with, OUT_NIBS cleared by DECODE and ENCODE. -/
theorem failureWritesNoOutput : Obligations.FailureWritesNoOutput := by
  intro i s t h hfail
  have hout := exec_outputs_of_failure h hfail
  simp only [State.outputs, Prod.mk.injEq] at hout
  obtain ⟨hubuf, htbuf, hnibs⟩ := hout
  obtain ⟨hu, ht⟩ := outputStart_buffers i s
  refine ⟨⟨hubuf.trans hu, htbuf.trans ht⟩, ?_⟩
  rintro (rfl | ⟨f, rfl⟩) <;> exact hnibs

end Sys2Proof.Machine
end

section
/-! PROOFS. The encoder's step commands alone (42_encode.md R190-R208): the search of ADVANCE over pairs of numbers, the words of
PREP, the acceptance conditions as step commands, and what EMIT writes, bit by bit. -/

namespace Sys2Proof.Machine

open Claims

theorem Fmt.N_le (f : Fmt) : f.N ≤ 1023 := by cases f <;> decide

/-! ### The header (40_units.md R121) -/

theorem toNat_hdr (sb : BitVec 12) (esb : BitVec 10) : (hdr sb esb).toNat = 2 ^ 22 + sb.toNat * 1024 + esb.toNat := by
  simp only [hdr, toNat_append_eq_add, BitVec.ofNat_eq_ofNat, BitVec.toNat_ofNat]
  omega

theorem bitAt_hdr (sb : BitVec 12) (esb : BitVec 10) {j : Nat} (hj : j < 25) : bitAt (hdr sb esb) j = headerBit sb esb j := by
  have hidx : 25 - 1 - j = 24 - j := by omega
  rw [bitAt_eq_getLsbD, headerBit, ← toNat_hdr, BitVec.testBit_toNat, hidx, decide_eq_true hj, Bool.true_and]

/-- The header windows of a pair, as numbers (42_encode.md R193). -/
theorem headerValid_iff (c : Config) (sb : BitVec 12) (esb : BitVec 10) :
    headerValid c sb esb = true ↔ HeaderOk c (sb.toNat, esb.toNat) := by
  have hwindow (a : Nat) : (hdr sb esb).extractLsb' a 11 = BitVec.ofNat 11 ((2 ^ 22 + sb.toNat * 1024 + esb.toNat) / 2 ^ a) := by
    rw [BitVec.extractLsb', toNat_hdr, Nat.shiftRight_eq_div_pow]
  rw [headerValid, Bool.and_eq_true, hwindow, hwindow]
  rfl

/-! ### The pairs ADVANCE looks at (42_encode.md R192, R193) -/

theorem searchStep_eq_stepOf (s : State) : searchStep s.esbStep = stepOf s := by
  simp only [searchStep, stepOf, ← BitVec.toNat_inj, BitVec.ofNat_eq_ofNat, BitVec.toNat_ofNat, Nat.zero_mod]

theorem stepOf_lt (s : State) : stepOf s < 1024 := by
  unfold stepOf
  split <;> omega

/-- Inc() on the registers is Inc() on their numbers: a step below 1024 wraps ESB at most once. -/
theorem incPair_toNat {step : Nat} (hstep : step < 1024) (sb : BitVec 12) (esb : BitVec 10) :
    ((incPair step (sb, esb)).1.toNat, (incPair step (sb, esb)).2.toNat) = incNumbers step (sb.toNat, esb.toNat) := by
  unfold incPair incNumbers
  split
  · next hwrap =>
    have hlt : esb.toNat + step - 1024 < 1024 := by omega
    simp [BitVec.toNat_add, Nat.mod_eq_of_lt hlt]
  · next hwrap => simp [Nat.mod_eq_of_lt (Nat.not_le.mp hwrap)]

theorem nextPair_toNat (s : State) : ((nextPair s).1.toNat, (nextPair s).2.toNat) = lookedAt s 0 := by
  unfold nextPair lookedAt
  split
  · rfl
  · rw [searchStep_eq_stepOf, incPair_toNat (stepOf_lt s)]
    rfl

/-- Increments can be counted from the front. -/
theorem incTimes_incNumbers (step k : Nat) (p : Nat × Nat) : incTimes step k (incNumbers step p) = incTimes step (k + 1) p := by
  induction k with
  | zero => rfl
  | succ k ih => exact congrArg (incNumbers step) ih

/-- After one turn of the search, its pairs from the next one on are those that the turn had before it. -/
theorem lookedAt_countAttempt_moveToNext (s : State) (k : Nat) :
    lookedAt (countAttempt (moveToNext s)) k = lookedAt s (k + 1) := by
  have hpair : ((moveToNext s).sb.toNat, (moveToNext s).esb.toNat) = lookedAt s 0 := nextPair_toNat s
  have hnext : lookedAt (countAttempt (moveToNext s)) k = incTimes (stepOf s) (k + 1) (lookedAt s 0) :=
    congrArg (incTimes (stepOf s) (k + 1)) hpair
  rw [hnext]
  unfold lookedAt
  split
  · rfl
  · exact incTimes_incNumbers (stepOf s) (k + 1) _

/-- The state of a search from s that has moved on to its k-th pair. -/
def atPair (s : State) (k : Nat) : State :=
  { s with sb := BitVec.ofNat 12 (lookedAt s k).1, esb := BitVec.ofNat 10 (lookedAt s k).2, first := false }

theorem moveToNext_eq_atPair (s : State) : moveToNext s = atPair s 0 := by
  rw [atPair, ← nextPair_toNat, BitVec.ofNat_toNat, BitVec.ofNat_toNat, BitVec.setWidth_eq, BitVec.setWidth_eq, moveToNext]

theorem atPair_countAttempt_moveToNext (s : State) (k : Nat) :
    atPair (countAttempt (moveToNext s)) k = countAttempt (atPair s (k + 1)) := by
  rw [atPair, lookedAt_countAttempt_moveToNext]
  rfl

theorem headerValid_moveToNext_iff (c : Config) (s : State) :
    headerValid c (moveToNext s).sb (moveToNext s).esb = true ↔ HeaderOk c (lookedAt s 0) := by
  rw [headerValid_iff, ← nextPair_toNat]
  rfl

/-! ### ADVANCE (R193) -/

/-- The search from s goes past its first k pairs, whose header windows are no codewords. -/
def PassesOver (c : Config) (s : State) (k : Nat) : Prop := ∀ j < k, ¬HeaderOk c (lookedAt s j)

/-- With n attempts left, n + 1 turns end the loop: at a pair whose header is valid, or at the pair after the last attempt. -/
theorem advanceLoop_finds (c : Config) (n : Nat) (s : State) (hleft : s.attempts.toNat + n = 4194304) :
    ∃ k, PassesOver c s k ∧
      ((k < n ∧ HeaderOk c (lookedAt s k) ∧ advanceLoop c (n + 1) s = .ok (setCond condHeader true
          { atPair s k with attempts := BitVec.ofNat 23 (s.attempts.toNat + k + 1) })) ∨
       (k = n ∧ advanceLoop c (n + 1) s = .raised .exhausted .advanceSbEsb (setCond condHeader false
          { atPair s k with attempts := attMax }))) := by
  induction n generalizing s with
  | zero =>
    have hused : (moveToNext s).attempts = attMax := BitVec.eq_of_toNat_eq hleft
    refine ⟨0, fun j hj => absurd hj j.not_lt_zero, .inr ⟨rfl, ?_⟩⟩
    rw [advanceLoop, if_pos hused, moveToNext_eq_atPair, ← hused]
    rfl
  | succ n ih =>
    have hleft' : (moveToNext s).attempts ≠ attMax := fun h => by
      have : s.attempts.toNat = 4194304 := congrArg BitVec.toNat h
      omega
    by_cases hvalid : headerValid c (moveToNext s).sb (moveToNext s).esb = true
    · refine ⟨0, fun j hj => absurd hj j.not_lt_zero, .inl ⟨n.succ_pos, (headerValid_moveToNext_iff c s).mp hvalid, ?_⟩⟩
      have hcount : BitVec.ofNat 23 (s.attempts.toNat + 0 + 1) = s.attempts + 1 := by bv_omega
      rw [advanceLoop, if_neg hleft', if_pos hvalid, moveToNext_eq_atPair, hcount]
      rfl
    · have hcount : (s.attempts + 1).toNat = s.attempts.toNat + 1 := by bv_omega
      have hturn : advanceLoop c (n + 1 + 1) s = advanceLoop c (n + 1) (countAttempt (moveToNext s)) := by
        rw [advanceLoop, if_neg hleft', if_neg hvalid]
      obtain ⟨k, hpast, hend⟩ := ih (countAttempt (moveToNext s)) (by
        change (s.attempts + 1).toNat + n = _
        omega)
      rw [← hturn, atPair_countAttempt_moveToNext, lookedAt_countAttempt_moveToNext] at hend
      refine ⟨k + 1, fun j hj => ?_, hend.imp ?_ ?_⟩
      · cases j with
        | zero => exact mt (headerValid_moveToNext_iff c s).mpr hvalid
        | succ j => exact lookedAt_countAttempt_moveToNext s j ▸ hpast j (Nat.lt_of_succ_lt_succ hj)
      · rintro ⟨hk, hheader, hok⟩
        refine ⟨Nat.succ_lt_succ hk, hheader, ?_⟩
        have hattempts : (countAttempt (moveToNext s)).attempts.toNat + k + 1 = s.attempts.toNat + (k + 1) + 1 := by
          change (s.attempts + 1).toNat + k + 1 = _
          omega
        rw [hok, hattempts]
        rfl
      · rintro ⟨rfl, hraised⟩
        exact ⟨rfl, hraised⟩

/-- With the other conditions cleared, COND says whether a pair was found. -/
theorem setCond_condHeader {s : State} {cond : BitVec 6} (h : s.cond = cond &&& 1) (found : Bool) :
    setCond condHeader found s = { s with cond := if found then 1 else 0 } := by
  rw [setCond, h]
  clear h
  congr 1
  revert cond found
  decide

/-- ADVANCE moves to the first pair whose header is valid, counting each pair it looks at, or uses the attempts up (R193). -/
theorem advanceBody_finds (c : Config) (s : State) (hatt : s.attempts.toNat ≤ 4194304) :
    ∃ k, PassesOver c s k ∧
      ((s.attempts.toNat + k < 4194304 ∧ HeaderOk c (lookedAt s k) ∧ advanceBody c s = .ok (enter .advanceSbEsb
          { atPair s k with attempts := BitVec.ofNat 23 (s.attempts.toNat + k + 1), cond := 1 })) ∨
       (s.attempts.toNat + k = 4194304 ∧ advanceBody c s = .raised .exhausted .advanceSbEsb (enter .advanceSbEsb
          { atPair s k with attempts := 4194304, cond := 0 }))) := by
  have hleft : s.attempts.toNat + (attMax - s.attempts).toNat = 4194304 := by
    unfold attMax
    bv_omega
  obtain ⟨k, hpast, hend⟩ := advanceLoop_finds c _ (clearCheckConds (enter .advanceSbEsb s)) hleft
  refine ⟨k, hpast, hend.imp ?_ ?_⟩
  · rintro ⟨hk, hheader, hok⟩
    exact ⟨by omega, hheader, hok.trans (congrArg BodyResult.ok (setCond_condHeader (cond := s.cond) rfl true))⟩
  · rintro ⟨hk, hraised⟩
    exact ⟨by omega, hraised.trans (congrArg (BodyResult.raised _ _) (setCond_condHeader (cond := s.cond) rfl false))⟩

/-- Settles O37: the search from the state's ATTEMPTS, ended OK or EXHAUSTED. -/
theorem advanceFindsNextPair : Obligations.AdvanceFindsNextPair := by
  refine stepCommand_of_body (onlyWord_encode (i := .advance) rfl) (fun _ => rfl) fun f s hexec hatt => ?_
  obtain ⟨k, hpast, hend⟩ := advanceBody_finds Config.chip s hatt
  refine ⟨k, _, hpast, rfl, hend.imp ?_ ?_⟩
  · rintro ⟨hk, hheader, hok⟩
    exact ⟨hk, hheader, by rw [hexec, hok, finish_ok_enter]; rfl⟩
  · rintro ⟨hk, hraised⟩
    exact ⟨hk, by rw [hexec, hraised, finish_raised_enter]; rfl⟩

/-! ### PREP (R194) -/

/-- The bit fed back is the cipher's or the plain one, whichever side it stands on (40_units.md R132). -/
theorem feedbackBit_eq (fb : Feedback) (dir : ScrambleDir) (x y : Bool) :
    feedbackBit fb dir x y = if (fb = .cipher) ↔ (dir = .enc) then y else x := by
  cases fb <;> cases dir <;> simp [feedbackBit]

/-- Scramble runs through the states of R132 from the seed of R131. -/
theorem scrambledBy_scramble (c : Config) (f : Fmt) (sb : BitVec 12) (dir : ScrambleDir) (w : BitVec 830) :
    ScrambledBy c f sb dir w (scramble c f sb dir w).2 (scramble c f sb dir w).1 := by
  have hM : f.M ≤ 830 := by cases f <;> decide
  obtain ⟨hlast, hbits⟩ := scramble_spec c f sb dir w
  refine ⟨scrambleState c dir (padTo 830 (slice w 0 f.M)) (seedState c f sb), ?_, fun i hi => ?_, hlast, fun i hi => ?_⟩
  · rw [← seedValue_eq_ofNat]
    rfl
  · have hin : bitAt (padTo 830 (slice w 0 f.M)) i = bitAt w i := by rw [bitAt_zero_padded w hM hM, if_pos hi]
    have hout := (hbits i).trans (if_pos hi)
    refine ⟨hout, ?_⟩
    rw [hout, ← feedbackBit_eq, ← hin]
    rfl
  · rw [hbits, if_neg (Nat.not_lt.mpr hi)]

/-- The payload's words do not reach into its trailer (10_state.md R56). -/
theorem wordAt_zero_padded (f : Fmt) (u : BitVec 832) {j : Nat} (hj : j < f.K) :
    wordAt (padTo 830 (slice u 0 f.M)) j = (word10 u j).toNat := by
  obtain ⟨hK, -, hM, -⟩ := Fmt.words_fit f
  refine congrArg BitVec.toNat (eq_of_bitAt fun i hi => ?_)
  rw [bitAt_slice _ hi (by omega), bitAt_zero_padded u (by omega) (by omega), if_pos (by omega), word10, bitAt_packBits _ hi]

/-- The checksum word (R195). -/
theorem word10_checksummed_zero (f : Fmt) (u : BitVec 832) :
    (word10 (checksummed f u) 0).toNat = ((List.range f.K).map fun j => (word10 u j).toNat).sum % 1024 := by
  have hwords : (List.range f.K).map (wordAt (padTo 830 (slice u 0 f.M))) =
      (List.range f.K).map fun j => (word10 u j).toNat :=
    List.map_congr_left fun j hj => wordAt_zero_padded f u (List.mem_range.mp hj)
  rw [toNat_word10_eq_wordAt _ (by decide), wordAt_checksummed_zero, ← sum_words, hwords]

/-- Settles O38: the checksum word, the scrambler over all words, and the codeword of each. -/
theorem prepShapesPayload : Obligations.PrepShapesPayload := by
  refine stepCommand_of_body (onlyWord_encode (i := .prep) rfl) (fun _ => rfl) fun f s hexec => ?_
  refine ⟨checksummed f s.ubuf, preparedWords Config.chip f s, _, expand Config.chip f (preparedWords Config.chip f s), hexec,
    word10_checksummed_zero f s.ubuf, fun i hi hM => ?_, scrambledBy_scramble _ f s.sb .enc _, fun j hj => ?_,
    fun i => expand_tail _ f _⟩
  · rw [bitAt_checksummed f s.ubuf hi, if_pos hM]
  · have hK := (Fmt.words_fit f).1
    rw [expand_block _ f _ hj, word10_eq_slice _ (by omega)]

/-! ### The acceptance conditions as step commands (R198) -/

/-- An acceptance condition alone: it writes its own bit of COND and rejects by its Boolean, which decides P. -/
theorem stepCommand_of_condition {w : Word} {i : Instr} {own : SeqState} {k : Nat} {test : Fmt → BitVec 1023 → Bool}
    {P : Fmt → State → Prop} (hword : OnlyWord w i)
    (hexec : ∀ s, exec i s = .next (withFormat own (fun f s => conditionBody own k (test f s.tel) s) s).finish)
    (htest : ∀ f s, test f s.tel = true ↔ P f s) :
    StepCommand w i own fun f s =>
      (P f s ∧ exec i s = .next (endedOk { s with cond := s.cond ||| BitVec.twoPow 6 k })) ∨
      (¬P f s ∧ exec i s = .next (endedBy .reject own { s with cond := s.cond &&& ~~~(BitVec.twoPow 6 k) })) := by
  refine stepCommand_of_body hword hexec fun f s hrun => ?_
  obtain ⟨hpass, h⟩ | ⟨hfail, h⟩ := conditionBody_cases own k (test f s.tel) s
  · exact .inl ⟨(htest f s).mp hpass, by rw [hrun, h]; rfl⟩
  · exact .inr ⟨fun hP => Bool.false_ne_true (hfail.symm.trans ((htest f s).mpr hP)), by rw [hrun, h]; rfl⟩

/-! ### CAPER (R199-R202) -/

theorem popcount_eq_countP_bitAt {n : Nat} (v : BitVec n) : popcount v = (List.range n).countP fun i => bitAt v i := by
  have hrev : (List.range n).reverse = (List.range n).map (n - 1 - ·) := by
    simp [List.range_eq_range', List.reverse_range']
  rw [popcount, ← List.countP_reverse, hrev, List.countP_map]
  refine List.countP_congr fun i hi => ?_
  simp [bitAt_eq_getLsbD, List.mem_range.mp hi]

/-- Bit i of a cyclic window (R199). -/
theorem bitAt_cyc (f : Fmt) (tel : BitVec 1023) (q : Int) {len i : Nat} (hlen : len ≤ f.N) (hi : i < len) :
    bitAt (cyc f tel q len) i = cycBit f tel (q + i) := by
  have hN : 0 < f.N := by omega
  have hidx : (i + (q % (f.N : Int)).toNat) % f.N = ((q + i) % (f.N : Int)).toNat := by
    have hq := Int.emod_nonneg q (Int.natCast_ne_zero.mpr hN.ne')
    zify
    rw [Int.toNat_of_nonneg hq, Int.toNat_of_nonneg (Int.emod_nonneg _ (by omega)), Int.add_emod_emod, add_comm]
  rw [cyc, bitAt_slice _ hi (by omega), Nat.zero_add, bitAt_rotateLeft _ _ (by omega), bitAt_candidate f tel (Nat.mod_lt _ hN),
    hidx, cycBit]

theorem bitAt_xor {n : Nat} (x y : BitVec n) (i : Nat) : bitAt (x ^^^ y) i = (bitAt x i != bitAt y i) := by
  simp [bitAt]

/-- Two windows differ in as many places as their bits do (R201). -/
theorem popcount_cyc_xor (f : Fmt) (tel : BitVec 1023) (p q : Int) {len : Nat} (hlen : len ≤ f.N) :
    popcount (cyc f tel p len ^^^ cyc f tel q len) =
      (List.range len).countP fun i : Nat => cycBit f tel (p + i) != cycBit f tel (q + i) := by
  rw [popcount_eq_countP_bitAt]
  refine List.countP_congr fun i hi => ?_
  have hi' := List.mem_range.mp hi
  rw [bitAt_xor, bitAt_cyc f tel p hlen hi', bitAt_cyc f tel q hlen hi']

/-- Aperiodic counts over the list of integers 0 to n − 1. -/
theorem countP_intRange (p : Int → Bool) (n : Nat) :
    (do let i ← List.range n; pure (i : Int)).countP p = (List.range n).countP fun i : Nat => p i := by
  simp only [List.bind_eq_flatMap, List.pure_def, ← List.map_eq_flatMap, List.countP_map]
  rfl

theorem mem_aperiodShifts (k : Int) : k ∈ aperiodShifts ↔ -3 ≤ k ∧ k ≤ 3 := by
  simp only [aperiodShifts, List.mem_cons, List.not_mem_nil, or_false]
  omega

theorem all_aperiodPairOk_iff (f : Fmt) (tel : BitVec 1023) :
    ((List.range f.NB).all fun j => aperiodShifts.all fun k => aperiodPairOk f tel j k) = true ↔ Aperiodic f tel := by
  have hlen : 22 ≤ f.N := by cases f <;> decide
  simp only [List.all_eq_true, List.mem_range, mem_aperiodShifts, and_imp, aperiodPairOk, decide_eq_true_eq,
    popcount_cyc_xor f tel _ _ hlen, Aperiodic, countP_intRange]
  rfl

/-- CAPER's test: nothing for SHORT, R201 for LONG. -/
theorem aperiodicityOk_iff (f : Fmt) (tel : BitVec 1023) : aperiodicityOk f tel = true ↔ f = .short ∨ Aperiodic f tel := by
  cases f with
  | short => simp [aperiodicityOk]
  | long =>
    rw [aperiodicityOk, all_aperiodPairOk_iff]
    simp

/-- Settles O41: R201 window by window. -/
theorem caperTestsAperiodicity : Obligations.CaperTestsAperiodicity :=
  stepCommand_of_condition (onlyWord_encode (i := .caper) rfl) (fun _ => rfl) fun f s => aperiodicityOk_iff f s.tel

/-! ### CUNDER of a SHORT telegram (R206, R207) -/

theorem longestRun_le_length (v : List Bool) : longestRun v ≤ v.length :=
  (longestRun_le_iff v v.length).mpr fun a ha => absurd ha (by omega)

/-- Sampling every second bit or fewer leaves at most 15 blocks, too few for a run of more than 30. -/
theorem undersamplingOk_short (c : Config) (tel : BitVec 1023) : undersamplingOk c .short tel = true := by
  have hblocks : ∀ k ∈ [2, 4, 8, 16], ∀ o, sampleLength .short k o / 11 ≤ 30 := by
    intro k hk o
    simp only [List.mem_cons, List.not_mem_nil, or_false] at hk
    have hN : Fmt.N .short = 341 := rfl
    rw [sampleLength, hN]
    rcases hk with rfl | rfl | rfl | rfl <;> omega
  simp only [undersamplingOk, List.all_eq_true, decide_eq_true_eq]
  intro k hk o _
  calc longestRun (sampleBlocks c .short tel k o)
    _ ≤ (sampleBlocks c .short tel k o).length := longestRun_le_length _
    _ = sampleLength .short k o / 11 := by rw [sampleBlocks, List.length_map, List.length_range]
    _ ≤ 30 := hblocks k hk o

/-- Settles O44: the sampled sequences of a SHORT telegram are too short to fail. -/
theorem cunderNeverRejectsShort : Obligations.CunderNeverRejectsShort := by
  intro s hs
  have hexec : exec .cunder s = .next (withFormat .undersampling (cunderBody Config.chip) s).finish := rfl
  rw [hexec, withFormat_some hs, cunderBody, undersamplingOk_short]
  rfl

/-! ### EMIT (R208) -/

theorem bitAt_padTo_candidate (f : Fmt) (tel : BitVec 1023) (j : Nat) :
    bitAt (padTo 1024 (candidate f tel)) j = if j < f.N then bitAt tel j else false := by
  have hN := Fmt.N_le f
  rw [candidate, bitAt_zero_padded tel hN (by omega)]

/-- Settles O45: TBUF is the candidate and zeros. -/
theorem emitPadsTelegram : Obligations.EmitPadsTelegram := by
  refine stepCommand_of_body (onlyWord_encode (i := .emit) rfl) (fun _ => rfl) fun f s hexec => ?_
  refine ⟨padTo 1024 (candidate f s.tel), ?_, bitAt_padTo_candidate f s.tel⟩
  rw [hexec]
  cases f <;> rfl

end Sys2Proof.Machine
end

section
/-! PROOFS. How ENCODE ends (42_encode.md R190, R210, R243): what a candidate that passes looks like, what a rejected one leaves to
the next turn, and why the turns always suffice. -/

namespace Sys2Proof.Machine

open Claims

/-! ### Parts of a candidate -/

theorem andThen_eq_ok_iff {r : BodyResult} {next : State → BodyResult} {t : State} :
    r.andThen next = .ok t ↔ ∃ u, r = .ok u ∧ next u = .ok t := by
  cases r <;> simp

theorem conditionBody_eq_ok_iff {own : SeqState} {k : Nat} {pass : Bool} {s t : State} :
    conditionBody own k pass s = .ok t ↔ pass = true ∧ t = setCond k true (enter own s) := by
  cases pass <;> simp [conditionBody, eq_comm]

/-- ASSEMBLE refuses when fg is 0 or the check bits do not fit their region (R197). -/
theorem assembleBody_eq_raised {c : Config} {f : Fmt} {s : State}
    (h : ¬(c.fgPoly f ≠ 0 ∧ checkBits c f (assembled f s.pbuf s.sb s.esb) < 2 ^ 85)) :
    assembleBody c f s = .raised .reject .assemble (setCond condSelfCheck false { enter .assemble s with
      tel := assembled f s.pbuf s.sb s.esb,
      rem := BitVec.ofNat 96 (polyMod (telPoly f (assembled f s.pbuf s.sb s.esb)) (c.fgPoly f)).1 }) := by
  by_cases hfg : c.fgPoly f = 0
  · have hdz : (polyMod (telPoly f (assembled f s.pbuf s.sb s.esb)) (c.fgPoly f)).2 = true := by rw [hfg, polyMod_zero]
    exact if_pos hdz
  · have hdz : ¬(polyMod (telPoly f (assembled f s.pbuf s.sb s.esb)) (c.fgPoly f)).2 = true := by simp [polyMod_snd _ hfg]
    have hself : checkBits c f (assembled f s.pbuf s.sb s.esb) % 2 ^ 85 ^^^ c.gPoly f ≠
        (polyMod (telPoly f (assembled f s.pbuf s.sb s.esb)) (c.fgPoly f)).1 := by
      rw [← checkBits_xor_gPoly, Ne, Nat.xor_left_inj]
      exact fun hmod => h ⟨hfg, hmod ▸ Nat.mod_lt _ (by decide)⟩
    exact (if_neg hdz).trans (if_pos hself)

/-- ASSEMBLE passes with its check bits, or rejects (R197). -/
theorem assembleBody_cases (c : Config) (f : Fmt) (s : State) : ∃ rem,
    assembleBody c f s = .ok (setCond condSelfCheck true { enter .assemble s with
      tel := withCheckBits c f (assembled f s.pbuf s.sb s.esb), rem := rem }) ∨
    assembleBody c f s = .raised .reject .assemble (setCond condSelfCheck false { enter .assemble s with
      tel := assembled f s.pbuf s.sb s.esb, rem := rem }) := by
  refine ⟨BitVec.ofNat 96 (polyMod (telPoly f (assembled f s.pbuf s.sb s.esb)) (c.fgPoly f)).1, ?_⟩
  by_cases h : c.fgPoly f ≠ 0 ∧ checkBits c f (assembled f s.pbuf s.sb s.esb) < 2 ^ 85
  · obtain ⟨hfg, hfit⟩ := h
    exact .inl (assembleBody_eq_ok c f s hfg hfit)
  · exact .inr (assembleBody_eq_raised h)

/-! ### What building and testing a candidate leaves alone -/

/-- What the search carries from pair to pair: the outputs, FORMAT, the pair and ATTEMPTS. -/
def State.search (s : State) := (s.outputs, s.format, s.sb, s.esb, s.attempts)

/-- A body raises nothing but REJECT. -/
def BodyResult.RejectsOnly : BodyResult → Prop
  | .ok _ => True
  | .raised code _ _ => code = .reject

/-- A body that started in s leaves the search alone, and raises nothing but REJECT. -/
structure BodyResult.Tries (s : State) (r : BodyResult) : Prop where
  search : r.state.search = s.search
  rejectsOnly : r.RejectsOnly

theorem BodyResult.Tries.andThen {s : State} {r : BodyResult} (h : r.Tries s) {next : State → BodyResult}
    (k : ∀ u, (next u).Tries u) : (r.andThen next).Tries s := by
  cases r with
  | ok u => exact ⟨(k u).search.trans h.search, (k u).rejectsOnly⟩
  | raised code stage u => exact h

theorem BodyResult.Tries.ok {s t : State} (h : t.search = s.search) : (BodyResult.ok t).Tries s := ⟨h, trivial⟩

theorem BodyResult.Tries.rejected {s t : State} {stage : SeqState} (h : t.search = s.search) :
    (BodyResult.raised .reject stage t).Tries s := ⟨h, rfl⟩

theorem conditionBody_tries (own : SeqState) (k : Nat) (pass : Bool) (s : State) : (conditionBody own k pass s).Tries s := by
  obtain ⟨-, h⟩ | ⟨-, h⟩ := conditionBody_cases own k pass s <;> rw [h]
  · exact .ok rfl
  · exact .rejected rfl

theorem prepBody_tries (c : Config) (f : Fmt) (s : State) : (prepBody c f s).Tries s := .ok rfl

theorem assembleBody_tries (c : Config) (f : Fmt) (s : State) : (assembleBody c f s).Tries s := by
  obtain ⟨rem, h | h⟩ := assembleBody_cases c f s <;> rw [h]
  · exact .ok rfl
  · exact .rejected rfl

theorem candidateBody_tries (c : Config) (f : Fmt) (s : State) : (candidateBody c f s).Tries s :=
  (prepBody_tries c f s).andThen fun s =>
  (assembleBody_tries c f s).andThen fun s =>
  (conditionBody_tries _ _ _ s).andThen fun s =>
  (conditionBody_tries _ _ _ s).andThen fun s =>
  (conditionBody_tries _ _ _ s).andThen fun s => conditionBody_tries _ _ _ s

/-! ### A candidate that passes -/

/-- CALPHA's test, block by block (R200). -/
theorem alphabetOk_iff (c : Config) (f : Fmt) (tel : BitVec 1023) : alphabetOk c f tel = true ↔ AllBlocksValid c f tel := by
  have hN := Fmt.N_le f
  have hNB : f.NB = f.N / 11 := rfl
  simp only [alphabetOk, List.all_eq_true, List.mem_range, AllBlocksValid, ← hNB]
  refine forall₂_congr fun j hj => ?_
  rw [validWord, slice_eq_packBits tel (by omega), ValidBlock, block]

/-- The candidate carries the header of a pair, and its blocks are codewords. -/
def CarriesPair (c : Config) (f : Fmt) (sb : BitVec 12) (esb : BitVec 10) (tel : BitVec 1023) : Prop :=
  (∀ j < 25, bitAt tel (f.N - 110 + j) = headerBit sb esb j) ∧ AllBlocksValid c f tel

/-- The header stands between the payload and the check bits (R197). -/
theorem bitAt_withCheckBits_header (c : Config) (f : Fmt) (pbuf : BitVec 913) (sb : BitVec 12) (esb : BitVec 10) {j : Nat}
    (hj : j < 25) : bitAt (withCheckBits c f (assembled f pbuf sb esb)) (f.N - 110 + j) = headerBit sb esb j := by
  have hidx : f.N - 110 + j = f.P + j := by have := Fmt.N_eq f; omega
  rw [hidx, bitAt_withCheckBits, if_neg (by omega), bitAt_assembled, if_neg (by omega), if_pos (by omega),
    Nat.add_sub_cancel_left, bitAt_hdr sb esb hj]

/-- COND bits 1 to 5, set one after another. -/
theorem set_check_conds (cond : BitVec 6) :
    cond ||| BitVec.twoPow 6 condSelfCheck ||| BitVec.twoPow 6 condAlphabet ||| BitVec.twoPow 6 condAperiodicity |||
      BitVec.twoPow 6 condOffSynch ||| BitVec.twoPow 6 condUndersampling = cond ||| 0x3E := by
  revert cond
  decide

/-- A candidate that passes every test sets the five conditions of COND beside ADVANCE's, and carries its pair. -/
theorem candidateBody_passed {c : Config} {f : Fmt} {s t : State} (h : candidateBody c f s = .ok t) :
    t.cond = s.cond ||| 0x3E ∧ CarriesPair c f s.sb s.esb t.tel := by
  simp only [candidateBody, andThen_eq_ok_iff, calphaBody, caperBody, coffsBody, cunderBody, conditionBody_eq_ok_iff] at h
  obtain ⟨u, hprep, v, hasm, _, ⟨halpha, rfl⟩, _, ⟨-, rfl⟩, _, ⟨-, rfl⟩, -, rfl⟩ := h
  have hu : u.sb = s.sb ∧ u.esb = s.esb ∧ u.cond = s.cond := by
    cases hprep
    exact ⟨rfl, rfl, rfl⟩
  obtain ⟨hsb, hesb, hcond⟩ := hu
  obtain ⟨rem, hv | hv⟩ := assembleBody_cases c f u <;> cases hasm.symm.trans hv
  refine ⟨?_, fun j hj => ?_, (alphabetOk_iff c f _).mp halpha⟩
  · rw [← hcond]
    exact set_check_conds u.cond
  · rw [← hsb, ← hesb]
    exact bitAt_withCheckBits_header c f u.pbuf u.sb u.esb hj

/-! ### The search -/

/-- t ends a search from s that emitted its candidate. -/
structure Emitted (c : Config) (f : Fmt) (s t : State) : Prop where
  ubuf : t.ubuf = s.ubuf
  format : t.format = s.format
  counted : 1 ≤ t.attempts.toNat
  within : t.attempts.toNat ≤ 4194304
  cond : t.cond = 0x3F
  outNibs : t.outNibs = BitVec.ofNat 9 f.TN
  tbuf : t.tbuf = padTo 1024 (candidate f t.tel)
  carriesPair : CarriesPair c f t.sb t.esb t.tel

/-- t ends a search from s that used its attempts up. -/
structure UsedUp (s t : State) : Prop where
  outputs : t.outputs = s.outputs
  format : t.format = s.format
  attempts : t.attempts = 4194304
  cond : t.cond = 0

/-- How a search from s may end (R190): never with REJECT. -/
def SearchEnds (c : Config) (f : Fmt) (s : State) (r : BodyResult) : Prop :=
  (∃ t, r = .ok t ∧ Emitted c f s t) ∨ ∃ t, r = .raised .exhausted .advanceSbEsb t ∧ UsedUp s t

/-- A search ends as one that started where it goes on, with the same outputs and FORMAT. -/
theorem SearchEnds.goingOn {c : Config} {f : Fmt} {s t : State} {r : BodyResult} (h : SearchEnds c f t r)
    (houtputs : t.outputs = s.outputs) (hformat : t.format = s.format) : SearchEnds c f s r := by
  have hubuf : t.ubuf = s.ubuf := congrArg Prod.fst houtputs
  refine h.imp ?_ ?_
  · rintro ⟨u, hr, he⟩
    exact ⟨u, hr, { he with ubuf := he.ubuf.trans hubuf, format := he.format.trans hformat }⟩
  · rintro ⟨u, hr, he⟩
    exact ⟨u, hr, { he with outputs := he.outputs.trans houtputs, format := he.format.trans hformat }⟩

/-- ADVANCE counts at least one attempt within the limit, or they are used up. -/
theorem advanceBody_counts (c : Config) {s : State} (hatt : s.attempts.toNat ≤ 4194304) :
    (∃ u, advanceBody c s = .ok u ∧ u.outputs = s.outputs ∧ u.format = s.format ∧ u.cond = 1 ∧
      s.attempts.toNat < u.attempts.toNat ∧ u.attempts.toNat ≤ 4194304) ∨
    ∃ t, advanceBody c s = .raised .exhausted .advanceSbEsb t ∧ UsedUp s t := by
  obtain ⟨k, -, ⟨hk, -, hok⟩ | ⟨-, hraised⟩⟩ := advanceBody_finds c s hatt
  · have hcount : (BitVec.ofNat 23 (s.attempts.toNat + k + 1)).toNat = s.attempts.toNat + k + 1 :=
      Nat.mod_eq_of_lt (by omega)
    have hmore : s.attempts.toNat < s.attempts.toNat + k + 1 := by omega
    exact .inl ⟨_, hok, rfl, rfl, rfl, hmore.trans_eq hcount.symm, hcount.trans_le hk⟩
  · exact .inr ⟨_, hraised, rfl, rfl, rfl, rfl⟩

/-- A candidate that ADVANCE found and that passes is emitted with its pair (R190, R208). -/
theorem emitted_of_passed {c : Config} {f : Fmt} {u v : State} (hpassed : candidateBody c f u = .ok v) (hcond : u.cond = 1)
    (hcounted : 1 ≤ u.attempts.toNat) (hwithin : u.attempts.toNat ≤ 4194304) :
    ∃ t, emitBody f v = .ok t ∧ Emitted c f u t := by
  have hsearch := (candidateBody_tries c f u).search
  rw [hpassed, state_ok] at hsearch
  simp only [State.search, State.outputs, Prod.mk.injEq] at hsearch
  obtain ⟨⟨hubuf, -, -⟩, hformat, hsb, hesb, hattempts⟩ := hsearch
  obtain ⟨hconds, hpair⟩ := candidateBody_passed hpassed
  refine ⟨_, rfl, hubuf, hformat, ?_, ?_, ?_, rfl, rfl, ?_⟩
  · exact hattempts ▸ hcounted
  · exact hattempts ▸ hwithin
  · exact hconds.trans (by rw [hcond]; rfl)
  · exact hsb ▸ hesb ▸ hpair

/-- More turns than attempts are left always suffice: each turn counts one (R193), and ends the search or rejects (R190). -/
theorem encodeLoop_ends (c : Config) (f : Fmt) (fuel : Nat) (s : State) (hatt : s.attempts.toNat ≤ 4194304)
    (hfuel : 4194304 < s.attempts.toNat + fuel) : SearchEnds c f s (encodeLoop c f fuel s) := by
  induction fuel generalizing s with
  | zero => omega
  | succ n ih =>
    rw [encodeLoop]
    obtain ⟨u, hadvance, houtputs, hformat, hcond, hcount, hwithin⟩ | ⟨t, hadvance, hused⟩ := advanceBody_counts c hatt
    · rw [hadvance, andThen_ok]
      refine SearchEnds.goingOn (t := u) ?_ houtputs hformat
      cases hcand : candidateBody c f u with
      | ok v =>
        obtain ⟨t, hemit, hemitted⟩ := emitted_of_passed hcand hcond (by omega) hwithin
        rw [andThen_ok, hemit, catching_ok]
        exact .inl ⟨t, rfl, hemitted⟩
      | raised code stage v =>
        obtain ⟨hsearch, hreject⟩ := hcand ▸ candidateBody_tries c f u
        obtain rfl : code = .reject := hreject
        rw [state_raised] at hsearch
        simp only [State.search, Prod.mk.injEq] at hsearch
        obtain ⟨houtputs', hformat', -, -, hattempts⟩ := hsearch
        rw [andThen_raised, catching_raised, if_pos rfl]
        exact (ih v (hattempts ▸ hwithin) (by rw [hattempts]; omega)).goingOn houtputs' hformat'
    · rw [hadvance, andThen_raised]
      exact .inr ⟨t, rfl, hused⟩

/-- ENCODE is a search from the state ESTART leaves (R190, R191). -/
theorem encodeBody_ends (c : Config) (f : Fmt) (s : State) :
    SearchEnds c f { s with format := some f, outNibs := 0 } (encodeBody c f s) := by
  have hturns : attMax.toNat = 4194304 := rfl
  rw [encodeBody, estartBody, andThen_ok, hturns]
  exact (encodeLoop_ends c f _ _ (Nat.zero_le _) (Nat.lt_succ_iff.mpr (Nat.le_add_left _ _))).goingOn rfl rfl

/-- Settles O47: the end of the search is the end of the command. -/
theorem encodeEndsEmittedOrExhausted : Obligations.EncodeEndsEmittedOrExhausted := by
  intro f s
  have hexec : exec (.encode f) s = .next (encodeBody Config.chip f s).finish := rfl
  rw [hexec]
  obtain ⟨t, ht, hend⟩ | ⟨t, ht, hend⟩ := encodeBody_ends Config.chip f s <;> rw [ht]
  · obtain ⟨hheader, hblocks⟩ := hend.carriesPair
    have hnibs : (BitVec.ofNat 9 f.TN).toNat = f.TN := by cases f <;> rfl
    refine ⟨complete t, rfl, hend.ubuf, hend.format, hend.within, .inl ⟨rfl, hend.cond, hend.counted, ?_, fun j => ?_, hheader,
      hblocks⟩⟩
    · rw [complete_outNibs, hend.outNibs, hnibs]
    · rw [complete_tbuf, complete_tel, hend.tbuf, bitAt_padTo_candidate]
  · have houtputs := hend.outputs
    simp only [State.outputs, Prod.mk.injEq] at houtputs
    obtain ⟨hubuf, htbuf, hnibs⟩ := houtputs
    have hattempts : t.attempts.toNat = 4194304 := congrArg BitVec.toNat hend.attempts
    exact ⟨raise .exhausted .advanceSbEsb t, rfl, hubuf, hend.format, hattempts.le,
      .inr ⟨rfl, rfl, hattempts, hend.cond, hnibs, htbuf⟩⟩

end Sys2Proof.Machine
end

section
/-! PROOFS. The control commands NOP and CLRIN (43_control.md R230, R232): their one word, their reserved words, and the whole next
state, in which nothing is left of their own SEQ state Control. -/

namespace Sys2Proof.Machine

open Claims

/-- NOP's whole effect (R230). -/
theorem exec_nop (s : State) : exec .nop s = .next (endedOk s) := by
  have hrun : exec .nop s = .next (BodyResult.ok (enter .control s)).finish := rfl
  rw [hrun, finish_ok_enter]

/-- CLRIN's whole effect (R232): that SEQ is written before the input stream makes no difference. -/
theorem exec_clrin (s : State) : exec .clrin s = .next (endedOk { s with ibuf := 0, inLen := 0 }) := by
  have hrun : exec .clrin s = .next (BodyResult.ok (enter .control { s with ibuf := 0, inLen := 0 })).finish := rfl
  rw [hrun, finish_ok_enter]

/-- Settles O14: the opcode's one word, its reserved words (R104), and the run. -/
theorem nopCompletes : Obligations.NopCompletes :=
  ⟨onlyWord_encode (i := .nop) rfl, unusedBitsIllegal _, exec_nop⟩

/-- Settles O16: the opcode's one word, its reserved words (R104), and the run. -/
theorem clrinClearsInput : Obligations.ClrinClearsInput :=
  ⟨onlyWord_encode (i := .clrin) rfl, unusedBitsIllegal _, exec_clrin⟩

end Sys2Proof.Machine
end

section
/-! PROOFS. How a command ends (60_exceptions.md R240, R244, R245, R250): every body, whatever it raised, ends with one of the two
writes of RESULT and SEQ, which set DONE and leave CTRL.IE, so that IRQ is CTRL.IE. -/

namespace Sys2Proof.Machine

open Claims

/-- The level of IRQ while DONE is 1 (R250). -/
theorem irq_of_done {s : State} (h : s.done = true) : irq s = s.ie := by rw [irq, h, Bool.and_true]

theorem ended_of_complete {s u : State} (hie : u.ie = s.ie) : Ended s (complete u) :=
  ⟨rfl, rfl, rfl, hie, (irq_of_done rfl).trans hie, .inl ⟨rfl, rfl, rfl⟩⟩

theorem ended_of_raise {s u : State} {code : ResultCode} {stage : SeqState} (hie : u.ie = s.ie) (hcode : code ≠ .ok)
    (hstage : stage ≠ .done) : Ended s (raise code stage u) :=
  ⟨rfl, rfl, rfl, hie, (irq_of_done rfl).trans hie, .inr ⟨hcode, hstage, rfl⟩⟩

/-- A body that keeps the host's side and raises only failures ends its command (R240). -/
theorem ended_of_keeps {s : State} {r : BodyResult} (h : r.Keeps s) : Ended s r.finish := by
  obtain ⟨hcarries, hfail⟩ := h
  have hie : r.state.ie = s.ie := congrArg Prod.fst hcarries.hostSide
  cases r with
  | ok u => exact ended_of_complete hie
  | raised code stage u =>
    obtain ⟨hcode, hstage⟩ := hfail
    exact ended_of_raise hie hcode hstage

/-- SRESET writes its own completion and puts CTRL.IE back (43_control.md R231). -/
theorem ended_softReset (s : State) : Ended s (softReset s) :=
  ⟨rfl, rfl, rfl, rfl, irq_of_done rfl, .inl ⟨rfl, rfl, rfl⟩⟩

/-- A rejected word ends its command at the state Decode (30_encoding.md R104). -/
theorem ended_illegalCommand (s : State) : Ended s (illegalCommand s) := ended_of_raise rfl (by decide) (by decide)

/-- SRESET and CLRIN apart, which write the host's side or the input stream, every command ends a body that keeps them. -/
theorem exec_ends (i : Instr) (s : State) : ∃ t, exec i s = .next t ∧ Ended s t := by
  by_cases hsreset : i = .sreset
  · subst hsreset
    exact ⟨softReset s, rfl, ended_softReset s⟩
  by_cases hclrin : i = .clrin
  · subst hclrin
    exact ⟨_, exec_clrin s, ended_of_complete rfl⟩
  obtain ⟨r, hr, hkeeps⟩ := exec_keeps i s hsreset hclrin
  exact ⟨r.finish, hr, ended_of_keeps hkeeps⟩

theorem coreStep_ends (w : Word) (s : State) : ∃ t, coreStep w s = .next t ∧ Ended s t := by
  unfold coreStep
  split
  · exact ⟨illegalCommand s, rfl, ended_illegalCommand s⟩
  · exact exec_ends _ s

/-- Settles O11: a command's body ends with R244's or R245's writes, and a due step of CORE runs a command or rejects its word. -/
theorem everyCommandEndsOnce : Obligations.EveryCommandEndsOnce := by
  refine ⟨exec_ends, fun s w hdue => ?_⟩
  rw [step_of_coreDue hdue]
  exact coreStep_ends w s

end Sys2Proof.Machine
end

section
/-! PROOFS. The reset state (70_reset_and_hazards.md R271) satisfies the invariant. -/

namespace Sys2Proof.Machine

/-- Resetting the block changes nothing of a state that is already the reset state (70_reset_and_hazards.md R271). -/
theorem resetBlock_reset : resetBlock State.reset = State.reset := rfl

/-- Settles O9: a reset block meets the invariant whatever the model's own fields hold, and the reset state is one. -/
theorem resetSatisfiesInvariant : Obligations.ResetSatisfiesInvariant := by
  have hinv : (resetBlock State.reset).Inv := resetBlock_inv State.reset
  rwa [resetBlock_reset] at hinv

end Sys2Proof.Machine
end

section
/-! PROOFS. The commands whose effect is written in one step: SRESET, SUBENC, POLYREM, WINDOW, GCHECK, FSYND, DESCR and ESTART, each
with its words (30_encoding.md R100-R105) and its whole next state. -/

namespace Sys2Proof.Machine

open Claims

/-! ### SRESET (43_control.md R231) -/

/-- The abort by the host and the command itself leave the state that the statements write out (20_memory.md R80). -/
theorem softReset_eq_afterSreset (s : State) : softReset s = afterSreset s := rfl

theorem exec_sreset (s : State) : exec .sreset s = .next (afterSreset s) := by
  rw [← softReset_eq_afterSreset]
  rfl

/-- Settles O15: the opcode's one word, its reserved words (R104), and the run. -/
theorem sresetResets : Obligations.SresetResets :=
  ⟨onlyWord_encode (i := .sreset) rfl, unusedBitsIllegal _, exec_sreset⟩

/-! ### SUBENC (40_units.md R127) -/

theorem toNat_encode_subenc (v : BitVec 10) : (encode (.subenc v)).toNat = 0x30000000 + v.toNat := by
  have hv : v.toNat < 4096 := by omega
  simp [encode, toNat_commandWord, Nat.mod_eq_of_lt hv]

/-- Settles O17: the row's one word for each operand, and the codeword as a number. -/
theorem subencLooksUp : Obligations.SubencLooksUp := by
  refine ⟨unusedBitsIllegal _, fun v => ⟨onlyWord_of_toNat rfl (toNat_encode_subenc v), fun s => ?_⟩⟩
  rw [exec_subenc, BitVec.ofNat_toNat]

/-! ### POLYREM (40_units.md R135) -/

theorem toNat_encode_polyrem (f : Fmt) (sel : BitVec 2) : (encode (.polyrem f sel)).toNat =
    0x34000000 + (if f = .long then 0x00800000 else 0) + sel.toNat * 0x00200000 := by
  simp [encode, toNat_commandWord, ← toNat_fmtBit_mul]

theorem wellFormed_polyrem {f : Fmt} {sel : BitVec 2} (h : sel ≠ 3) : (Instr.polyrem f sel).wellFormed = true := by
  simpa [Instr.wellFormed] using h

/-- A selector that is not reserved selects the divisor of R102. -/
theorem selectedPoly_eq_divisorOf (c : Config) (f : Fmt) {sel : BitVec 2} (h : sel ≠ 3) :
    selectedPoly c f sel = some (divisorOf c f sel) := by
  have hsel : sel = 0 ∨ sel = 1 ∨ sel = 2 := by
    revert sel
    decide
  obtain rfl | rfl | rfl := hsel <;> rfl

theorem polyremBy_zero (f : Fmt) (s : State) : polyremBy f 0 s = .raised .divz .unit (enter .unit { s with rem := 0 }) := by
  simp only [polyremBy, polyMod_zero, if_true]
  rfl

theorem polyremBy_of_ne_zero (f : Fmt) {p : Nat} (hp : p ≠ 0) (s : State) :
    polyremBy f p s = .ok (enter .unit { s with
      rem := BitVec.ofNat 96 (polyMod (telPoly f s.tel) p).1,
      res := if (polyMod (telPoly f s.tel) p).1 = 0 then 1 else 0 }) := by
  simp only [polyremBy, polyMod_snd _ hp, Bool.false_eq_true, if_false]
  rfl

theorem exec_polyrem (f : Fmt) {sel : BitVec 2} (h : sel ≠ 3) (s : State) :
    exec (.polyrem f sel) s = .next (polyremBy f (divisorOf Config.chip f sel) s).finish := by
  have hexec : exec (.polyrem f sel) s = .next (polyremBody Config.chip f sel s).finish := rfl
  rw [hexec, polyremBody, selectedPoly_eq_divisorOf _ f h]

/-- Settles O25: the reserved selector apart, the division by the selected polynomial or by 0. -/
theorem polyremDivides : Obligations.PolyremDivides := by
  refine ⟨unusedBitsIllegal _, fun f sel s => ?_⟩
  split
  next hsel =>
    subst hsel
    exact ⟨fun w hdec => Bool.false_ne_true (encode_of_decode hdec).1, rfl⟩
  next hsel =>
    refine ⟨onlyWord_of_toNat (wellFormed_polyrem hsel) (toNat_encode_polyrem f sel), ?_⟩
    rw [exec_polyrem f hsel]
    split
    next hzero => rw [hzero, polyremBy_zero, finish_raised_enter]
    next hdiv => rw [polyremBy_of_ne_zero f hdiv, finish_ok_enter]

/-! ### WINDOW (41_decode.md R162) -/

theorem bitAt_tailWindow_of_le (f : Fmt) (ibuf : BitVec 1024) {j : Nat} (hj : f.N ≤ j) : bitAt (tailWindow f ibuf) j = false := by
  rw [tailWindow, bitAt_padTo _ (Fmt.N_le f), bitAt_of_le _ hj]

/-- Settles O27: TEL is the tail window and zeros. -/
theorem windowTakesTail : Obligations.WindowTakesTail := by
  refine stepCommand_of_body (onlyWord_encode (i := .window) rfl) (fun _ => rfl) fun f s hexec => ?_
  refine ⟨tailWindow f s.ibuf, hexec, fun j => ?_⟩
  split
  next hj => exact bitAt_tailWindow f s.ibuf hj
  next hj => exact bitAt_tailWindow_of_le f s.ibuf (Nat.not_lt.mp hj)

/-! ### GCHECK (41_decode.md R164) -/

theorem gcheckBody_of_zero {c : Config} {f : Fmt} {s : State} (h : c.gPoly f = 0) :
    gcheckBody c f s = .raised .divz .checkSyndrome (enter .checkSyndrome { s with rem := 0 }) := by
  simp only [gcheckBody, h, polyMod_zero, if_true]
  rfl

theorem gcheckBody_of_ne_zero {c : Config} {f : Fmt} {s : State} (hg : c.gPoly f ≠ 0)
    (hrem : (polyMod (telPoly f s.tel) (c.gPoly f)).1 ≠ 0) :
    gcheckBody c f s = .raised .synErr .checkSyndrome (enter .checkSyndrome
      { s with rem := BitVec.ofNat 96 (polyMod (telPoly f s.tel) (c.gPoly f)).1 }) := by
  simp only [gcheckBody, polyMod_snd _ hg, Bool.false_eq_true, if_false, if_pos hrem]
  rfl

/-- Settles O28: no divisor, remainder 0, or another remainder. -/
theorem gcheckTestsDivisibility : Obligations.GcheckTestsDivisibility := by
  refine stepCommand_of_body (onlyWord_encode (i := .gcheck) rfl) (fun _ => rfl) fun f s hexec => ?_
  rw [hexec]
  split
  next hg => rw [gcheckBody_of_zero hg, finish_raised_enter]
  next hg =>
    split
    next hrem =>
      rw [gcheckBody_eq_ok (Prod.ext hrem (polyMod_snd _ hg))]
      rfl
    next hrem => rw [gcheckBody_of_ne_zero hg hrem, finish_raised_enter]

/-! ### FSYND (41_decode.md R165) -/

theorem fsyndBody_of_zero {c : Config} {f : Fmt} {s : State} (h : c.fPoly f = 0) :
    fsyndBody c f s = .raised .divz .checkSyndrome (enter .checkSyndrome s) := by
  simp only [fsyndBody, h, polyMod_zero, if_true]

/-- A syndrome fits SYND, since deg f ≤ 16 (00_scope.md R10, 10_state.md R46). -/
theorem toNat_syndrome {c : Config} (wf : c.WellFormed) {f : Fmt} (hf : c.fPoly f ≠ 0) (a : Nat) :
    (BitVec.ofNat 16 (polyMod a (c.fPoly f)).1).toNat = (polyMod a (c.fPoly f)).1 := by
  have hdeg : (c.fPoly f).log2 < 17 := (Nat.log2_lt hf).mpr (wf.fDegree f)
  have hlt : (polyMod a (c.fPoly f)).1 < 2 ^ 16 :=
    (polyMod_fst_lt a hf).trans_le (Nat.pow_le_pow_right (by decide) (Nat.le_of_lt_succ hdeg))
  rw [BitVec.toNat_ofNat, Nat.mod_eq_of_lt hlt]

/-- Settles O29: no divisor, or the whole remainder in SYND. -/
theorem fsyndComputesSyndrome : Obligations.FsyndComputesSyndrome := by
  refine stepCommand_of_body (onlyWord_encode (i := .fsynd) rfl) (fun _ => rfl) fun f s hexec => ?_
  rw [hexec]
  split
  next hf => rw [fsyndBody_of_zero hf, finish_raised_enter]
  next hf =>
    refine ⟨_, ?_, toNat_syndrome Config.installed.wf hf (telPoly f s.tel)⟩
    rw [fsyndBody_eq_ok (Prod.ext rfl (polyMod_snd _ hf))]
    rfl

/-! ### DESCR (41_decode.md R172) -/

/-- Settles O33: DESCR is Scramble (R132) in the direction DEC. -/
theorem descrDescrambles : Obligations.DescrDescrambles :=
  stepCommand_of_body (onlyWord_encode (i := .descr) rfl) (fun _ => rfl) fun f s hexec =>
    ⟨_, _, hexec, scrambledBy_scramble Config.chip f s.sb .dec s.wbuf⟩

/-! ### ESTART (42_encode.md R191) -/

/-- What ESTART sets up for a search in the format f. -/
def searchStart (f : Fmt) (s : State) : State :=
  { s with format := some f, sb := s.sbStart, esb := s.esbStart, attempts := 0, first := true, cond := 0, outNibs := 0 }

theorem estartBody_eq_ok (f : Fmt) (s : State) : estartBody f s = .ok (enter .encStart (searchStart f s)) := rfl

theorem exec_estart (f : Fmt) (s : State) : exec (.estart f) s = .next (endedOk (searchStart f s)) := by
  have hexec : exec (.estart f) s = .next (estartBody f s).finish := rfl
  rw [hexec, estartBody_eq_ok, finish_ok_enter]

/-- Settles O36: the opcode's two words, its reserved words (R104), and the run. -/
theorem estartStartsSearch : Obligations.EstartStartsSearch :=
  ⟨unusedBitsIllegal _, onlyWord_encode (i := .estart .short) rfl, onlyWord_encode (i := .estart .long) rfl, exec_estart⟩

end Sys2Proof.Machine
end

section
/-! PROOFS. ASSEMBLE (42_encode.md R197) and the acceptance conditions CALPHA, COFFS and CUNDER (R200-R207) as step commands: the
candidate bit by bit, and the tests block by block and run by run. -/

namespace Sys2Proof.Machine

open Claims

/-! ### ASSEMBLE (R197) -/

theorem bitAt_assembled_header (f : Fmt) (p : BitVec 913) (sb : BitVec 12) (esb : BitVec 10) (j : Nat) :
    bitAt (assembled f p sb esb) j =
      if j < f.P then bitAt p j else if j < f.P + 25 then headerBit sb esb (j - f.P) else false := by
  rw [bitAt_assembled]
  split_ifs with hpayload hheader
  · rfl
  · exact bitAt_hdr sb esb (by omega)
  · rfl

/-- Settles O39: the candidate before its check bits; with them when fg is not 0 and they fit, else rejected. -/
theorem assembleInsertsCheckBits : Obligations.AssembleInsertsCheckBits := by
  refine stepCommand_of_body (onlyWord_encode (i := .assemble) rfl) (fun _ => rfl) fun f s hexec => ?_
  refine ⟨assembled f s.pbuf s.sb s.esb, _, bitAt_assembled_header f s.pbuf s.sb s.esb, rfl, ?_⟩
  rw [hexec]
  split
  next h =>
    obtain ⟨hfg, hfit⟩ := h
    refine ⟨withCheckBits Config.chip f (assembled f s.pbuf s.sb s.esb), ?_, fun j => ?_⟩
    · rw [assembleBody_eq_ok _ f s hfg hfit]
      rfl
    · have hN := Fmt.N_eq f
      rw [bitAt_withCheckBits]
      by_cases hbefore : j < f.N - 85
      · rw [if_pos hbefore, if_neg (by omega)]
      by_cases hin : j < f.N
      · rw [if_neg hbefore, if_pos hin, if_pos (by omega)]
        rfl
      · rw [if_neg hbefore, if_neg hin, if_neg (by omega), bitAt_assembled, if_neg (by omega), if_neg (by omega)]
  next h =>
    rw [assembleBody_eq_raised h]
    rfl

/-! ### CALPHA (R200) -/

/-- Settles O40: R200 block by block. -/
theorem calphaTestsAlphabet : Obligations.CalphaTestsAlphabet :=
  stepCommand_of_condition (onlyWord_encode (i := .calpha) rfl) (fun _ => rfl) fun f s => alphabetOk_iff _ f s.tel

/-! ### Runs of codewords (R205) -/

/-- The longest run of a tabulated sequence is at most m exactly when no m + 1 elements in a row are true. -/
theorem longestRun_le_iff_noRunOver {v : Nat → Bool} {P : Nat → Prop} {n : Nat} (h : ∀ j < n, v j = true ↔ P j) (m : Nat) :
    longestRun ((List.range n).map v) ≤ m ↔ NoRunOver P n m := by
  rw [longestRun_le_iff, List.length_map, List.length_range]
  refine forall₂_congr fun a ha => exists_congr fun j => and_congr_right fun _ => and_congr_right fun hj => ?_
  have hjn : j < n := by omega
  rw [← h j hjn]
  simp [hjn]

/-! ### COFFS (R203, R204) -/

/-- The doubled telegram repeats after N bits (R203). -/
theorem bitAt_doubled (f : Fmt) (tel : BitVec 1023) {i : Nat} (hi : i < f.N + f.N) :
    bitAt (doubled f tel) i = bitAt tel (i % f.N) := by
  rw [doubled, bitAt_append]
  by_cases hfirst : i < f.N
  · rw [if_pos hfirst, bitAt_candidate f tel hfirst, Nat.mod_eq_of_lt hfirst]
  · have hsecond : i - f.N < f.N := by omega
    rw [if_neg hfirst, bitAt_candidate f tel hsecond, Nat.mod_eq_sub_mod (Nat.not_lt.mp hfirst), Nat.mod_eq_of_lt hsecond]

theorem slice_doubled (f : Fmt) (tel : BitVec 1023) {a : Nat} (h : a + 11 ≤ f.N + f.N) :
    slice (doubled f tel) a 11 = block fun i => bitAt tel ((a + i) % f.N) := by
  refine eq_of_bitAt fun i hi => ?_
  rw [bitAt_slice _ hi h, bitAt_doubled f tel (by omega), block, bitAt_packBits _ hi]

theorem offSynchOk_iff (c : Config) (f : Fmt) (tel : BitVec 1023) : offSynchOk c f tel = true ↔ OffSynchSafe c f tel := by
  simp only [offSynchOk, List.all_eq_true, List.mem_range, decide_eq_true_eq]
  refine forall₂_congr fun o _ => longestRun_le_iff_noRunOver (fun j hj => ?_) _
  rw [slice_doubled f tel (by omega)]
  rfl

/-- Settles O42: R204 run by run. -/
theorem coffsTestsOffSynch : Obligations.CoffsTestsOffSynch :=
  stepCommand_of_condition (onlyWord_encode (i := .coffs) rfl) (fun _ => rfl) fun f s => offSynchOk_iff _ f s.tel

/-! ### CUNDER (R206, R207) -/

/-- The length of a sampled sequence, as the statement writes it. -/
theorem sampleLength_eq (f : Fmt) {k : Nat} (hk : 1 ≤ k) (o : Nat) : sampleLength f k o = (f.N - o + k - 1) / k := by
  rw [sampleLength, Nat.add_sub_assoc hk]

theorem undersamplingOk_iff (c : Config) (f : Fmt) (tel : BitVec 1023) :
    undersamplingOk c f tel = true ↔ UndersamplingSafe c f tel := by
  simp only [undersamplingOk, List.all_eq_true, List.mem_range, decide_eq_true_eq]
  refine forall₂_congr fun k hk => forall₂_congr fun o _ => ?_
  have hpos : ∀ k ∈ [2, 4, 8, 16], 1 ≤ k := by decide
  rw [← sampleLength_eq f (hpos k hk)]
  exact longestRun_le_iff_noRunOver (fun _ _ => Iff.rfl) 30

/-- Settles O43: R207 run by run. -/
theorem cunderTestsUndersampling : Obligations.CunderTestsUndersampling :=
  stepCommand_of_condition (onlyWord_encode (i := .cunder) rfl) (fun _ => rfl) fun f s => undersamplingOk_iff _ f s.tel

end Sys2Proof.Machine
end

section
/-! PROOFS. ENCODE as its step commands one after another (42_encode.md R190, R210): each encoder step alone runs the body that the
search runs, and a turn of the search is one issue of the list. -/

namespace Sys2Proof.Machine

open Claims

/-! ### The encoder's bodies as step bodies -/

/-- A turn of ADVANCE's search when the attempts are used up (R193). -/
theorem advanceLoop_of_used {c : Config} {n : Nat} {s : State} (h : (moveToNext s).attempts = attMax) :
    advanceLoop c (n + 1) s = .raised .exhausted .advanceSbEsb (setCond condHeader false (moveToNext s)) := if_pos h

/-- A turn at a pair whose header windows are codewords. -/
theorem advanceLoop_of_valid {c : Config} {n : Nat} {s : State} (h : (moveToNext s).attempts ≠ attMax)
    (hvalid : headerValid c (moveToNext s).sb (moveToNext s).esb = true) :
    advanceLoop c (n + 1) s = .ok (setCond condHeader true (countAttempt (moveToNext s))) := (if_neg h).trans (if_pos hvalid)

/-- A turn at any other pair. -/
theorem advanceLoop_of_invalid {c : Config} {n : Nat} {s : State} (h : (moveToNext s).attempts ≠ attMax)
    (hvalid : headerValid c (moveToNext s).sb (moveToNext s).esb ≠ true) :
    advanceLoop c (n + 1) s = advanceLoop c n (countAttempt (moveToNext s)) := (if_neg h).trans (if_neg hvalid)

/-- The search for a pair does not see how the command before it ended. -/
theorem advanceLoop_inner (c : Config) (fuel : Nat) (s : State) :
    (advanceLoop c fuel s.inner).finish = (advanceLoop c fuel s).finish := by
  induction fuel generalizing s with
  | zero => rfl
  | succ n ih =>
    by_cases hused : (moveToNext s).attempts = attMax
    · rw [advanceLoop_of_used hused, advanceLoop_of_used (s := s.inner) hused]
      rfl
    by_cases hvalid : headerValid c (moveToNext s).sb (moveToNext s).esb = true
    · rw [advanceLoop_of_valid hused hvalid, advanceLoop_of_valid (s := s.inner) hused hvalid]
      rfl
    · have hnext : countAttempt (moveToNext s.inner) = (countAttempt (moveToNext s)).inner := rfl
      rw [advanceLoop_of_invalid hused hvalid, advanceLoop_of_invalid (s := s.inner) hused hvalid, hnext, ih]

theorem advanceBody_stepBody (c : Config) : StepBody (advanceBody c) := by
  refine ⟨fun s => ?_, fun s => ?_, fun s => (advanceBody_keeps c s).raisesFailure⟩
  · have hstart : (clearCheckConds (enter .advanceSbEsb s.inner)).inner = (clearCheckConds (enter .advanceSbEsb s)).inner := rfl
    rw [advanceBody, ← advanceLoop_inner, hstart, advanceLoop_inner]
    rfl
  · rw [advanceBody]
    obtain ⟨_, _, _, _, _, h | h⟩ :=
      advanceLoop_cases c ((attMax - s.attempts).toNat + 1) (clearCheckConds (enter .advanceSbEsb s)) <;> rw [h] <;> rfl

theorem prepBody_stepBody (c : Config) (f : Fmt) : StepBody (prepBody c f) :=
  ⟨fun _ => rfl, fun _ => rfl, fun s => (prepBody_keeps c f s).raisesFailure⟩

theorem assembleBody_stepBody (c : Config) (f : Fmt) : StepBody (assembleBody c f) := by
  refine ⟨fun s => ?_, fun s => ?_, fun s => (assembleBody_keeps c f s).raisesFailure⟩
  · by_cases h : c.fgPoly f ≠ 0 ∧ checkBits c f (assembled f s.pbuf s.sb s.esb) < 2 ^ 85
    · obtain ⟨hfg, hfit⟩ := h
      rw [assembleBody_eq_ok c f s hfg hfit, assembleBody_eq_ok c f s.inner hfg hfit]
      rfl
    · rw [assembleBody_eq_raised h, assembleBody_eq_raised (s := s.inner) h]
      rfl
  · obtain ⟨rem, h | h⟩ := assembleBody_cases c f s <;> rw [h] <;> rfl

/-- An acceptance condition, whose test reads the candidate only. -/
theorem conditionBody_stepBody {own : SeqState} (hown : own ≠ .done) (k : Nat) (test : BitVec 1023 → Bool) :
    StepBody fun s => conditionBody own k (test s.tel) s := by
  refine ⟨fun s => ?_, fun s => ?_, fun s => (conditionBody_keeps hown k _ s).raisesFailure⟩
  · change (conditionBody own k (test s.tel) s.inner).finish = _
    cases test s.tel <;> rfl
  · cases test s.tel <;> rfl

theorem emitBody_stepBody (f : Fmt) : StepBody (emitBody f) :=
  ⟨fun _ => rfl, fun _ => rfl, fun s => (emitBody_keeps f s).raisesFailure⟩

/-! ### A turn of the search -/

/-- One turn of ENCODE (R190): the next pair, its candidate, and the telegram if it passes. -/
def searchTurn (c : Config) (f : Fmt) (s : State) : BodyResult :=
  (advanceBody c s).andThen fun s => (candidateBody c f s).andThen (emitBody f)

/-- The step commands of a turn. -/
def turnCommands : List Instr := [.advance, .prep, .assemble, .calpha, .caper, .coffs, .cunder, .emit]

theorem issued_turnCommands (f : Fmt) : IssuedAs f turnCommands (searchTurn Config.chip f) := by
  have hturn : searchTurn Config.chip f = fun s =>
      (advanceBody Config.chip s).andThen fun s => (prepBody Config.chip f s).andThen fun s =>
      (assembleBody Config.chip f s).andThen fun s => (calphaBody Config.chip f s).andThen fun s =>
      (caperBody f s).andThen fun s => (coffsBody Config.chip f s).andThen fun s =>
      (cunderBody Config.chip f s).andThen (emitBody f) := by
    funext s
    simp only [searchTurn, candidateBody, andThen_assoc]
  rw [hturn]
  exact .cons (body := fun _ => advanceBody _) (fun _ => rfl) (advanceBody_stepBody _) <|
    .cons (fun _ => rfl) (prepBody_stepBody _ f) <| .cons (fun _ => rfl) (assembleBody_stepBody _ f) <|
    .cons (fun _ => rfl) (conditionBody_stepBody (by decide) _ (alphabetOk _ f)) <|
    .cons (fun _ => rfl) (conditionBody_stepBody (by decide) _ (aperiodicityOk f)) <|
    .cons (fun _ => rfl) (conditionBody_stepBody (by decide) _ (offSynchOk _ f)) <|
    .cons (fun _ => rfl) (conditionBody_stepBody (by decide) _ (undersamplingOk _ f)) <|
    .last (fun _ => rfl) (emitBody_stepBody f)

/-- A rejected turn is followed by the next (R190); any other turn ends the search. -/
theorem encodeLoop_succ (c : Config) (f : Fmt) (fuel : Nat) {s : State} (hatt : s.attempts.toNat ≤ 4194304) :
    (∃ stage t, searchTurn c f s = .raised .reject stage t ∧ encodeLoop c f (fuel + 1) s = encodeLoop c f fuel t ∧
      t.format = s.format ∧ s.attempts.toNat < t.attempts.toNat ∧ t.attempts.toNat ≤ 4194304) ∨
    ((searchTurn c f s).finish.resultCode ≠ .reject ∧ encodeLoop c f (fuel + 1) s = searchTurn c f s) := by
  rw [encodeLoop, searchTurn]
  obtain ⟨u, hadvance, -, hformat, -, hcount, hwithin⟩ | ⟨t, hadvance, -⟩ := advanceBody_counts c hatt
  · rw [hadvance, andThen_ok, andThen_ok]
    cases hcand : candidateBody c f u with
    | ok v => exact .inr ⟨nofun, rfl⟩
    | raised code stage v =>
      obtain ⟨hsearch, hreject⟩ := hcand ▸ candidateBody_tries c f u
      obtain rfl : code = .reject := hreject
      rw [state_raised] at hsearch
      simp only [State.search, Prod.mk.injEq] at hsearch
      obtain ⟨-, hformat', -, -, hattempts⟩ := hsearch
      rw [andThen_raised, catching_raised, if_pos rfl]
      exact .inl ⟨stage, v, rfl, rfl, hformat'.trans hformat, hattempts ▸ hcount, hattempts ▸ hwithin⟩
  · rw [hadvance]
    exact .inr ⟨nofun, rfl⟩

/-! ### The search -/

theorem searchBySteps_succ (n : Nat) (s : State) : searchBySteps (n + 1) s =
    if (runSteps turnCommands s).resultCode = .reject then searchBySteps n (runSteps turnCommands s)
    else runSteps turnCommands s := rfl

/-- With more turns than attempts left, the host's search by step commands ends as ENCODE's does (R193). -/
theorem searchBySteps_eq (f : Fmt) (fuel : Nat) {s t : State} (hf : s.format = some f) (hst : t.inner = s.inner)
    (hatt : s.attempts.toNat ≤ 4194304) (hfuel : 4194304 < s.attempts.toNat + fuel) :
    searchBySteps fuel t = (encodeLoop Config.chip f fuel s).finish := by
  induction fuel generalizing s t with
  | zero => omega
  | succ n ih =>
    rw [searchBySteps_succ, issued_turnCommands f s t hf hst]
    obtain ⟨stage, u, hturn, hloop, hformat, hcount, hwithin⟩ | ⟨hend, hloop⟩ := encodeLoop_succ Config.chip f n hatt
    · rw [hloop, hturn, finish_raised, if_pos (raise_resultCode _ _ _)]
      exact ih (hformat.trans hf) (raise_inner _ _ _) hwithin (by omega)
    · rw [hloop, if_neg hend]

/-- Settles O46: after ESTART, a turn of ENCODE's search for each issue of the list. -/
theorem encodeIsItsSteps : Obligations.EncodeIsItsSteps := by
  refine ⟨onlyWord_encode (i := .encode .short) rfl, onlyWord_encode (i := .encode .long) rfl, fun f s => ?_⟩
  have hexec : exec (.encode f) s = .next (encodeBody Config.chip f s).finish := rfl
  have hstart : runSteps [.estart f] s = complete (enter .encStart (searchStart f s)) := rfl
  have hturns : attMax.toNat = 4194304 := rfl
  rw [hexec, hstart, encodeBody, estartBody_eq_ok, andThen_ok, hturns]
  exact congrArg Host.Outcome.next
    (searchBySteps_eq f _ rfl (complete_inner _) (Nat.zero_le _) (Nat.lt_succ_iff.mpr (Nat.le_add_left _ _))).symm

end Sys2Proof.Machine
end

section
/-! PROOFS. The telegram that ASSEMBLE leaves (42_encode.md R196): its remainders by fg, g and f, and DECODE of it as it was built
(95_test_vectors.md S1). -/

namespace Sys2Proof.Machine

open Claims

/-! ### Remainders of a telegram that is g modulo fg -/

/-- A well-formed configuration's fg is a multiple of f and of g (00_scope.md R10). -/
theorem gf2_fgPoly {c : Config} (wf : c.WellFormed) (f : Fmt) :
    gf2 (c.fgPoly f) = gf2 (c.fPoly f) * gf2 (c.gPoly f) := by
  rw [wf.product, gf2_clmul]

/-- The telegram is g modulo fg. -/
def CongruentToG (c : Config) (f : Fmt) (tel : BitVec 1023) : Prop :=
  gf2 (c.fgPoly f) ∣ gf2 (telPoly f tel) - gf2 (c.gPoly f)

section

variable {c : Config} {f : Fmt} {tel : BitVec 1023}

theorem CongruentToG.polyMod_fgPoly (h : CongruentToG c f tel) (hfg : c.fgPoly f ≠ 0)
    (hdeg : (c.gPoly f).log2 < (c.fgPoly f).log2) : polyMod (telPoly f tel) (c.fgPoly f) = (c.gPoly f, false) :=
  calc polyMod (telPoly f tel) (c.fgPoly f)
    _ = polyMod (c.gPoly f) (c.fgPoly f) := polyMod_congr h
    _ = (c.gPoly f, false) := polyMod_of_lt hfg ((lt_two_pow_log2_iff _ _).mpr (.inr hdeg))

theorem CongruentToG.polyMod_gPoly (h : CongruentToG c f tel) (wf : c.WellFormed) (hg : c.gPoly f ≠ 0) :
    polyMod (telPoly f tel) (c.gPoly f) = (0, false) :=
  calc polyMod (telPoly f tel) (c.gPoly f)
    _ = polyMod (c.gPoly f) (c.gPoly f) := polyMod_congr ((Dvd.intro_left _ (gf2_fgPoly wf f).symm).trans h)
    _ = (0, false) := polyMod_of_dvd hg dvd_rfl

theorem CongruentToG.polyMod_fPoly (h : CongruentToG c f tel) (wf : c.WellFormed) (hf : c.fPoly f ≠ 0) :
    polyMod (telPoly f tel) (c.fPoly f) = ((polyMod (c.gPoly f) (c.fPoly f)).1, false) :=
  calc polyMod (telPoly f tel) (c.fPoly f)
    _ = polyMod (c.gPoly f) (c.fPoly f) := polyMod_congr ((Dvd.intro _ (gf2_fgPoly wf f).symm).trans h)
    _ = ((polyMod (c.gPoly f) (c.fPoly f)).1, false) := Prod.ext rfl (polyMod_snd _ hf)

/-- The candidate with its check bits, whatever stands in its payload. -/
theorem congruentToG_withCheckBits (wf : c.WellFormed) (hf : 2 ≤ c.fPoly f) (hg : c.gPoly f ≠ 0) (p : BitVec 913)
    (sb : BitVec 12) (esb : BitVec 10) : CongruentToG c f (withCheckBits c f (assembled f p sb esb)) := by
  refine telPoly_withCheckBits c f _ (wellFormed_degrees wf hf hg).1 (wellFormed_checkBits_lt wf hf hg _) fun i hi => ?_
  rw [bitAt_assembled, if_neg (by omega), if_neg (by omega)]

end

/-- Settles O49: the check bits make the telegram g modulo fg, so g divides it and f leaves of it what it leaves of g. -/
theorem assembledTelegramPassesGcheck : Obligations.AssembledTelegramPassesGcheck := by
  intro c f s wf hf hg
  have hf0 : c.fPoly f ≠ 0 := by omega
  obtain ⟨hfg, hdeg, -⟩ := wellFormed_degrees wf hf hg
  have htel := congruentToG_withCheckBits wf hf hg s.pbuf s.sb s.esb
  refine ⟨hdeg, _, _, _, assembleBody_eq_ok c f s hfg (wellFormed_checkBits_lt wf hf hg _), htel.polyMod_fgPoly hfg hdeg,
    gcheckBody_eq_ok (htel.polyMod_gPoly wf hg), rfl, fsyndBody_eq_ok (htel.polyMod_fPoly wf hf0),
    toNat_syndrome wf hf0 _⟩

/-! ### DECODE of the built telegram -/

/-- Input that shows the telegram right-aligned makes it the window. -/
theorem tailWindow_eq {f : Fmt} {tel : BitVec 1023} {ibuf : BitVec 1024}
    (hbits : ∀ j < f.N, bitAt ibuf (1024 - f.N + j) = bitAt tel j) (htail : ∀ i, f.N ≤ i → bitAt tel i = false) :
    tailWindow f ibuf = tel := by
  refine eq_of_bitAt fun i _ => ?_
  by_cases hi : i < f.N
  · rw [bitAt_tailWindow f ibuf hi, hbits i hi]
  · rw [bitAt_tailWindow_of_le f ibuf (Nat.not_lt.mp hi), htail i (Nat.not_lt.mp hi)]

theorem realign_zero {f : Fmt} {tel : BitVec 1023} (htail : ∀ i, f.N ≤ i → bitAt tel i = false) : realign f tel 0 = tel := by
  refine eq_of_bitAt fun i _ => ?_
  by_cases hi : i < f.N
  · exact bitAt_realign_zero tel hi
  · rw [bitAt_realign, if_neg hi, htail i (Nat.not_lt.mp hi)]

/-- Settles O50: the window is the telegram, so GCHECK passes, the syndrome is that of g, and its shift 0 leaves the telegram. -/
theorem builtTelegramDecodes : Obligations.BuiltTelegramDecodes := by
  intro c f s wf hf hg hlong hidx
  have hf0 : c.fPoly f ≠ 0 := by omega
  have hN : 0 < f.N := by cases f <;> decide
  have htail : ∀ i, f.N ≤ i → bitAt (builtTelegram c f s) i = false := fun i hi => bitAt_builtTelegram_of_le c f s hi
  have hcongr : CongruentToG c f (builtTelegram c f s) := builtTelegram_congr_gPoly wf hf hg s
  obtain ⟨t, hbuilds, ht⟩ := builds_builtTelegram wf hf hg s
  refine ⟨t, hbuilds, fun d hlen hbits => ?_⟩
  rw [ht] at hbits
  have hwindow : tailWindow f d.ibuf = builtTelegram c f s := tailWindow_eq hbits htail
  obtain ⟨u, hdecode, htel, hshift, hinv⟩ := decodeBody_of_syndrome hlen (hwindow ▸ hcongr.polyMod_gPoly wf hg)
    (hwindow ▸ hcongr.polyMod_fPoly wf hf0) (fun h => syndrome_ne_zero wf hf0 _ (hlong h)) hidx hN
  rw [hwindow, realign_zero htail] at htel
  obtain ⟨v, hv, hdec⟩ := payloadSteps_builtTelegram wf ht htel
  rw [hshift, hinv] at hdec
  exact ⟨v, hdecode.trans hv, hdec⟩

end Sys2Proof.Machine
end

section
/-! PROOFS. Accesses of the port by location (20_memory.md R71-R74, R80; 70_reset_and_hazards.md R280, R282): which offsets each class
of writes has, what a write of each class does idle and busy, and what the registers read as. -/

namespace Sys2Proof.Machine

open Claims

/-! ### Which offsets a write reaches -/

theorem offset_of_locate_reg {off : Nat} {r : PortReg} (h : locate off = .reg r) : off = r.offset := by
  cases hreg : regAt off with
  | some q =>
    simp only [locate, hreg, Location.reg.injEq] at h
    rw [offset_of_regAt hreg, h]
  | none =>
    obtain ⟨b, w, hl⟩ | hl := locate_of_regAt_none hreg <;> cases hl.symm.trans h

/-- A word-aligned offset in a buffer's range is a word of the buffer (10_state.md R32). -/
theorem locate_of_mem_range {b : PortBuf} {off : Nat} (hal : off % 4 = 0) (hlo : b.offset ≤ off)
    (hhi : off < b.offset + 4 * b.words) : locate off = .buf b ((off - b.offset) / 4) := by
  have hbase : b.offset % 4 = 0 := by cases b <;> decide
  have hoff : off = b.offset + 4 * ((off - b.offset) / 4) := by omega
  have hword : (off - b.offset) / 4 < b.words := by omega
  rw [← locate_buf hword, ← hoff]

/-- The statement's ranges are those of the read-write registers other than CTRL and STATUS, the push registers and the read-write
buffers. -/
theorem writeClass_of_guardedOffset {off : Nat} (hal : off % 4 = 0) (h : GuardedOffset off) :
    writeClass (locate off) = .guarded := by
  have hregs : ∀ o ∈ [0x018, 0x020, 0x024, 0x028, 0x02C, 0x030], writeClass (locate o) = .guarded := by decide
  obtain hreg | ⟨hlo, hhi⟩ | ⟨hlo, hhi⟩ | ⟨hlo, hhi⟩ | ⟨hlo, hhi⟩ := h
  · exact hregs off hreg
  · rw [locate_of_mem_range (b := .ubuf) hal hlo (hhi.trans_lt (by decide))]
    rfl
  · rw [locate_of_mem_range (b := .tel) hal hlo (hhi.trans_lt (by decide))]
    rfl
  · rw [locate_of_mem_range (b := .wbuf) hal hlo (hhi.trans_lt (by decide))]
    rfl
  · rw [locate_of_mem_range (b := .pbuf) hal hlo (hhi.trans_lt (by decide))]
    rfl

/-- Only CTRL, STATUS, CMD and the guarded locations take writes (10_state.md R32). -/
theorem offset_of_writeClass_ne_ignored {off : Nat} (hal : off % 4 = 0) (h : writeClass (locate off) ≠ .ignored) :
    off = 0x004 ∨ off = 0x008 ∨ off = 0x00C ∨ GuardedOffset off := by
  cases hl : locate off with
  | reg r =>
    have hregs : ∀ r, writeClass (.reg r) ≠ .ignored → r.offset = 0x004 ∨ r.offset = 0x008 ∨ r.offset = 0x00C ∨
        r.offset ∈ [0x018, 0x020, 0x024, 0x028, 0x02C, 0x030] := by
      intro r
      cases r <;> decide
    rw [offset_of_locate_reg hl]
    exact (hregs r (hl ▸ h)).imp_right (.imp_right (.imp_right .inl))
  | buf b w =>
    obtain ⟨hoff, hw⟩ := offset_of_locate_buf hal hl
    rw [hl] at h
    unfold GuardedOffset
    cases b with
    | tbuf | ibuf => exact absurd rfl h
    | ubuf | tel | wbuf | pbuf =>
      simp only [PortBuf.offset, PortBuf.words] at hoff hw
      omega
  | unmapped =>
    rw [hl] at h
    exact absurd rfl h

theorem writeClass_of_ignoredOffset {off : Nat} (h : ReadOnlyOffset off ∨ UnmappedOffset off) :
    writeClass (locate off) = .ignored := by
  by_contra hclass
  simp only [ReadOnlyOffset, UnmappedOffset, List.mem_cons, List.not_mem_nil, or_false] at h
  have hwritten := offset_of_writeClass_ne_ignored (by omega) hclass
  simp only [GuardedOffset, List.mem_cons, List.not_mem_nil, or_false] at hwritten
  omega

theorem locate_of_unmappedOffset {off : Nat} (h : UnmappedOffset off) : locate off = .unmapped := by
  obtain ⟨hal, hranges⟩ := h
  cases hl : locate off with
  | reg r =>
    have hlt : r.offset < 0x070 := by cases r <;> decide
    have hoff := offset_of_locate_reg hl
    omega
  | buf b w =>
    obtain ⟨hoff, hw⟩ := offset_of_locate_buf hal hl
    cases b with
    | _ =>
      simp only [PortBuf.offset, PortBuf.words] at hoff hw
      omega
  | unmapped => rfl

/-! ### What a write of each class does -/

section

variable {s : State} {off : Nat} (v : Word)

theorem memWrite_ignored (h : writeClass (locate off) = .ignored) : memWrite off v s = s := by
  simp only [memWrite, h]

theorem memWrite_always (h : writeClass (locate off) = .always) : memWrite off v s = storeLocation (locate off) v s := by
  simp only [memWrite, h]

theorem memWrite_issue (h : writeClass (locate off) = .issue) : memWrite off v s = issue v s := by
  simp only [memWrite, h]

/-- While busy, a write of a guarded location is dropped (70_reset_and_hazards.md R280). -/
theorem memWrite_guarded_busy (hbusy : s.busy = true) (h : writeClass (locate off) = .guarded) :
    memWrite off v s = dropWrite s := by
  simp only [memWrite, h, hbusy, if_true]

theorem issue_idle (hidle : s.busy = false) : issue v s = accept v s := if_pos hidle

/-- While busy, only SRESET's word is performed (20_memory.md R80). -/
theorem issue_busy (hbusy : s.busy = true) : issue v s = if v = 0x01000000 then softReset s else dropWrite s :=
  if_neg (by simp [hbusy])

end

/-- Settles O56: CMD is the one location that is issued. -/
theorem cmdWriteHasThreeEffects : Obligations.CmdWriteHasThreeEffects := by
  intro s w
  rw [memWrite_issue w rfl]
  refine ⟨fun hidle => ⟨_, issue_idle w hidle⟩, fun hbusy hw => ?_, fun hbusy hw => ?_⟩
  · rw [issue_busy w hbusy, if_pos hw, softReset_eq_afterSreset]
  · rw [issue_busy w hbusy, if_neg hw]
    rfl

/-- Settles O57: the three registers that are served while busy, the guarded locations, and all others. -/
theorem busyWritesFollowProtocol : Obligations.BusyWritesFollowProtocol := by
  intro s off v hbusy hal _
  refine ⟨?ctrl, ?status, ?cmd, fun hguarded => ?guarded, fun hctrl hstatus hcmd hguarded => ?other⟩
  case ctrl =>
    rintro rfl
    exact memWrite_always v rfl
  case status =>
    rintro rfl
    exact memWrite_always v rfl
  case cmd =>
    rintro rfl
    rw [memWrite_issue v rfl, issue_busy v hbusy, softReset_eq_afterSreset]
    rfl
  case guarded => exact memWrite_guarded_busy v hbusy (writeClass_of_guardedOffset hal hguarded)
  case other =>
    refine memWrite_ignored v (by_contra fun hclass => ?_)
    obtain h | h | h | h := offset_of_writeClass_ne_ignored hal hclass
    exacts [hctrl h, hstatus h, hcmd h, hguarded h]

/-! ### What a read answers -/

theorem memRead_answers {s : State} {off : Nat} (h : s.busy = false ∨ readableWhileBusy (locate off) = true) :
    memRead off s = { s with responses := readLocation (locate off) s :: s.responses } := by
  refine if_neg ?_
  rintro ⟨hbusy, hreadable⟩
  obtain h | h := h
  · exact Bool.false_ne_true (h.symm.trans hbusy)
  · exact Bool.false_ne_true (hreadable.symm.trans h)

/-- CTRL's word is its one bit (10_state.md R36). -/
theorem readLocation_ctrl (s : State) : readLocation (locate 0x004) s = if s.ie then 1 else 0 := setWidth_ofBool s.ie

/-- Settles O58: the four registers are readable while busy, and no read writes more than the record of answers. -/
theorem busyReadsAnswerFourRegisters : Obligations.BusyReadsAnswerFourRegisters := by
  intro s _
  refine ⟨memRead_answers (.inr rfl), ?_, memRead_answers (.inr rfl), memRead_answers (.inr rfl), fun off => memRead_frame off s⟩
  rw [memRead_answers (.inr rfl), readLocation_ctrl]

/-! ### What the registers read as -/

/-- A register narrower than its word reads as its number, reserved bits 0 (10_state.md R31). -/
theorem readNumber_of_setWidth {off n : Nat} {s : State} {x : BitVec n} (h : readLocation (locate off) s = x.setWidth 32)
    (hn : n ≤ 32 := by decide) : readNumber off s = x.toNat := by
  rw [readNumber, h, BitVec.toNat_setWidth_of_le hn]

/-- The two words of SCR (10_state.md R52). -/
theorem toNat_scr_words (x : BitVec 33) :
    (x.extractLsb' 0 32).toNat + 2 ^ 32 * ((x.extractLsb' 32 1).setWidth 32).toNat = x.toNat := by
  simp only [BitVec.toNat_setWidth_of_le (show 1 ≤ 32 by decide), BitVec.extractLsb'_toNat, Nat.shiftRight_eq_div_pow]
  omega

/-- The three words of REM (10_state.md R53). -/
theorem toNat_rem_words (x : BitVec 96) :
    (x.extractLsb' 0 32).toNat + 2 ^ 32 * (x.extractLsb' 32 32).toNat + 2 ^ 64 * (x.extractLsb' 64 32).toNat = x.toNat := by
  simp only [BitVec.extractLsb'_toNat, Nat.shiftRight_eq_div_pow]
  omega

theorem registersRead (s : State) : RegistersRead s := by
  obtain ⟨-, hresult, hseq, hformat, -⟩ := statusAndResultImages
  have hctrl : readNumber 0x004 s = s.ie.toNat := (readNumber_of_setWidth (x := .ofBool s.ie) rfl).trans (BitVec.toNat_ofBool _)
  refine ⟨rfl, hctrl, rfl, rfl, hresult s, hseq s, hformat s, ?_, rfl, rfl, ?_, ?_, ?_, ?_, ?_, ?_, ?_, ?_, ?_, ?_, ?_, ?_, rfl,
    toNat_scr_words s.scr, toNat_rem_words s.rem⟩
  all_goals exact readNumber_of_setWidth rfl

/-! ### Idle writes of registers -/

theorem extractLsb'_zero_eq_ofNat (v : Word) (len : Nat) : v.extractLsb' 0 len = BitVec.ofNat len v.toNat := rfl

/-- FORMAT from the low two bits of a word, 3 as NONE (10_state.md R40). -/
theorem formatOfCode_eq (v : BitVec 2) :
    formatOfCode v = if v.toNat = 1 then some .short else if v.toNat = 2 then some .long else none := by
  revert v
  decide

/-- Settles O60: every read answers its location; a write stores its register's low bits, or meets an ignored location. -/
theorem idlePortReadsAndWrites : Obligations.IdlePortReadsAndWrites := by
  refine ⟨fun s off hidle => memRead_answers (.inl hidle), fun s => ⟨registersRead s, fun off hoff => ?unmapped⟩,
    fun s v hidle => ⟨memWrite_always v rfl, memWrite_always v rfl, ?format, ?sbStart, ?esbStart, ?esbStep⟩,
    fun s off v hoff => memWrite_ignored v (writeClass_of_ignoredOffset hoff)⟩
  case unmapped =>
    rw [locate_of_unmappedOffset hoff]
    rfl
  case format =>
    have hbits : (v.extractLsb' 0 2).toNat = v.toNat % 4 := by simp
    rw [memWrite_format v hidle, formatOfCode_eq, hbits]
  case sbStart | esbStart | esbStep =>
    rw [← extractLsb'_zero_eq_ofNat]
    exact memWrite_guarded v hidle rfl

end Sys2Proof.Machine
end

section
/-! PROOFS. Steps of the outside (70_reset_and_hazards.md R281): which event a step serves and how, and that a command in flight is
reached within its latency (R286). -/

namespace Sys2Proof.Machine

open Claims

/-! ### Serving one event -/

/-- While CORE's step is not due, the step is the outside's. -/
theorem step_of_not_due {s : State} (h : s.pend = none ∨ (s.latency ≠ 0 ∧ s.host ≠ [])) : step s = hostStep s := by
  cases hpend : s.pend with
  | none => simp [step, blockStep, hpend]
  | some w =>
    obtain ⟨hlat, hhost⟩ := h.resolve_left (by simp [hpend])
    simp [step, blockStep, hpend, hlat, hhost]

theorem hostStep_cons {s : State} {e : HostEvent} {rest : List HostEvent} (h : s.host = e :: rest) :
    hostStep s = serveEvent e rest { s with latency := s.latency - 1 } := by
  simp only [hostStep, h]

/-- The event first in line is served. -/
theorem step_serves {s : State} (hdue : s.pend = none ∨ s.latency ≠ 0) {e : HostEvent} {rest : List HostEvent}
    (h : s.host = e :: rest) : step s = serveEvent e rest { s with latency := s.latency - 1 } := by
  have hhost : s.host ≠ [] := by simp [h]
  rw [step_of_not_due (hdue.imp_right fun hlat => ⟨hlat, hhost⟩), hostStep_cons h]

theorem atOffset_of_wellFormed {off : Nat} (hal : off % 4 = 0) (hlt : off < 0x1000) (access : State → State) (s : State) :
    atOffset off access s = .next (access s) := by
  rw [atOffset, if_neg (not_not.mpr hal), if_neg (Nat.not_le.mpr hlt)]

theorem atOffset_of_misaligned {off : Nat} (h : off % 4 ≠ 0) (access : State → State) (s : State) :
    atOffset off access s = .refused (.misalignedOffset off) := if_pos h

theorem atOffset_of_outside {off : Nat} (hal : off % 4 = 0) (h : 0x1000 ≤ off) (access : State → State) (s : State) :
    atOffset off access s = .refused (.offsetOutOfRange off) := by
  rw [atOffset, if_neg (not_not.mpr hal), if_pos h]

/-- STATUS answers its value at all times (R282). -/
theorem memRead_status (s : State) : memRead statusOffset s = { s with responses := statusWord s :: s.responses } :=
  memRead_answers (.inr rfl)

/-- Settles O6: the step serves the event first in line, each kind in its way. -/
theorem stepServesHostAccess : Obligations.StepServesHostAccess := by
  intro s rest hdue
  refine ⟨fun off v => ⟨fun hal hlt => ⟨fun h => ?_, fun h => ?_⟩, fun hmis => ⟨fun h => ?_, fun h => ?_⟩,
    fun hal hout => ⟨fun h => ?_, fun h => ?_⟩⟩, fun h => ?reset, fun h => ?poll, fun h => ?irq⟩
  all_goals rw [step_serves hdue h]
  · exact atOffset_of_wellFormed hal hlt _ _
  · exact atOffset_of_wellFormed hal hlt _ _
  · exact atOffset_of_misaligned hmis _ _
  · exact atOffset_of_misaligned hmis _ _
  · exact atOffset_of_outside hal hout _ _
  · exact atOffset_of_outside hal hout _ _
  case reset => rfl
  case poll =>
    rw [serveEvent, memRead_status]
    rfl
  case irq =>
    have hirq : (irq s = true) = (s.ie = true ∧ s.done = true) := by rw [irq, Bool.and_eq_true]
    rw [serveEvent]
    simp only [← hirq]
    rfl

/-- Settles O7: R258. -/
theorem idleBlockKeepsItsState : Obligations.IdleBlockKeepsItsState := fun _ hpend hhost => step_idle hpend hhost

/-! ### A command in flight (R286) -/

/-- A command is in flight, n events are served before CORE's step, and the host program is es. -/
def Awaits (n : Nat) (es : List HostEvent) (s : State) : Prop :=
  s.busy = true ∧ s.pend.isSome = true ∧ s.latency = n ∧ s.host = es

section

variable {n : Nat} {es : List HostEvent} {s : State}

theorem pushWord_awaits (v : Word) (h : Awaits n es s) : Awaits n es (pushWord v s) :=
  List.foldlRecOn (motive := Awaits n es) _ _ h fun _ hu _ _ => hu

/-- A performed write does not reach the command in flight (20_memory.md R72). -/
theorem storeLocation_awaits (l : Location) (v : Word) (h : Awaits n es s) : Awaits n es (storeLocation l v s) := by
  cases l with
  | unmapped => exact h
  | buf b w => cases b <;> exact h
  | reg r =>
    cases r with
    | inWord => exact pushWord_awaits v h
    | _ => exact h

theorem memRead_awaits (off : Nat) (h : Awaits n es s) : Awaits n es (memRead off s) := by
  obtain ⟨w, k, hread⟩ := memRead_frame off s
  rw [hread]
  exact h

/-- A write while busy leaves the command waiting, or is SRESET's word and discards it (R280). -/
theorem memWrite_awaits (off : Nat) (v : Word) (h : Awaits n es s) :
    (memWrite off v s).pend = none ∨ Awaits n es (memWrite off v s) := by
  have hbusy : s.busy = true := h.1
  cases hclass : writeClass (locate off) with
  | ignored => exact .inr (memWrite_ignored v hclass ▸ h)
  | always => exact .inr (memWrite_always v hclass ▸ storeLocation_awaits _ v h)
  | guarded =>
    rw [memWrite_guarded_busy v hbusy hclass]
    exact .inr h
  | issue =>
    rw [memWrite_issue v hclass, issue_busy v hbusy]
    split
    · exact .inl rfl
    · exact .inr h

end

/-- An event inside the port's contract is served: it discards the command in flight, or leaves it waiting. -/
theorem serveEvent_awaits {n : Nat} {e : HostEvent} {rest : List HostEvent} {s : State} (h : Awaits n (e :: rest) s)
    (hprogram : (e :: rest).all HostEvent.wellFormed = true) :
    ∃ t, serveEvent e rest s = .next t ∧
      (t.pend = none ∨ ∃ es, es.all HostEvent.wellFormed = true ∧ Awaits n es t) := by
  obtain ⟨hbusy, hpend, hlat, -⟩ := h
  have hserved (es : List HostEvent) : Awaits n es { s with host := es } := ⟨hbusy, hpend, hlat, rfl⟩
  have hsplit : e.wellFormed = true ∧ rest.all HostEvent.wellFormed = true := by
    rwa [List.all_cons, Bool.and_eq_true] at hprogram
  obtain ⟨he, hrest⟩ := hsplit
  cases e with
  | read off =>
    simp only [HostEvent.wellFormed, Bool.and_eq_true, beq_iff_eq, decide_eq_true_eq] at he
    obtain ⟨hal, hlt⟩ := he
    exact ⟨_, atOffset_of_wellFormed hal hlt _ _, .inr ⟨rest, hrest, memRead_awaits off (hserved rest)⟩⟩
  | write off v =>
    simp only [HostEvent.wellFormed, Bool.and_eq_true, beq_iff_eq, decide_eq_true_eq] at he
    obtain ⟨hal, hlt⟩ := he
    exact ⟨_, atOffset_of_wellFormed hal hlt _ _,
      (memWrite_awaits off v (hserved rest)).imp_right fun hw => ⟨rest, hrest, hw⟩⟩
  | waitIdle =>
    have hpoll : (if s.busy then HostEvent.waitIdle :: rest else rest) = .waitIdle :: rest := if_pos hbusy
    refine ⟨_, rfl, .inr ⟨_, hprogram, ?_⟩⟩
    rw [hpoll]
    exact memRead_awaits statusOffset (hserved _)
  | waitIrq =>
    refine ⟨_, rfl, .inr ⟨if irq s then rest else .waitIrq :: rest, ?_, hserved _⟩⟩
    split
    · exact hrest
    · exact hprogram
  | externalReset => exact ⟨_, rfl, .inl rfl⟩

theorem run_zero (s : State) : Host.Core.run Sys2Proof.core 0 s = .next s := rfl

theorem run_succ {s t : State} (h : step s = .next t) (k : Nat) :
    Host.Core.run Sys2Proof.core (k + 1) s = Host.Core.run Sys2Proof.core k t := by
  have hstep : Sys2Proof.core.step s = .next t := h
  simp only [Host.Core.run, hstep]

/-- CORE's step ends the command when it is due (R240). -/
theorem ends_of_due {s : State} (hpend : s.pend.isSome = true) (hdue : s.latency = 0 ∨ s.host = []) :
    ∃ t, Host.Core.run Sys2Proof.core 1 s = .next t ∧ t.pend = none := by
  obtain ⟨w, hw⟩ := Option.isSome_iff_exists.mp hpend
  obtain ⟨-, hends⟩ := everyCommandEndsOnce
  obtain ⟨t, ht, hnone, -⟩ := hends s w ⟨hw, hdue⟩
  exact ⟨t, (run_succ ht 0).trans (run_zero t), hnone⟩

/-- With n events to be served, n + 1 steps suffice. -/
theorem ends_of_awaits (n : Nat) {es : List HostEvent} {s : State} (h : Awaits n es s)
    (hprogram : es.all HostEvent.wellFormed = true) :
    ∃ k t, k ≤ n + 1 ∧ Host.Core.run Sys2Proof.core k s = .next t ∧ t.pend = none := by
  induction n generalizing es s with
  | zero =>
    obtain ⟨-, hpend, hlat, -⟩ := h
    obtain ⟨t, ht⟩ := ends_of_due hpend (.inl hlat)
    exact ⟨1, t, le_rfl, ht⟩
  | succ n ih =>
    obtain ⟨hbusy, hpend, hlat, hhost⟩ := h
    cases es with
    | nil =>
      obtain ⟨t, ht⟩ := ends_of_due hpend (.inr hhost)
      exact ⟨1, t, by omega, ht⟩
    | cons e rest =>
      have hlater : Awaits n (e :: rest) { s with latency := s.latency - 1 } :=
        ⟨hbusy, hpend, Nat.sub_eq_of_eq_add hlat, hhost⟩
      obtain ⟨t, hserve, hend⟩ := serveEvent_awaits hlater hprogram
      have hstep : step s = .next t := (step_serves (.inr (by omega)) hhost).trans hserve
      obtain hnone | ⟨es, hes, hawaits⟩ := hend
      · exact ⟨1, t, by omega, (run_succ hstep 0).trans (run_zero t), hnone⟩
      · obtain ⟨k, u, hk, hrun, hnone⟩ := ih hawaits hes
        exact ⟨k + 1, u, by omega, (run_succ hstep k).trans hrun, hnone⟩

/-- Settles O8: by induction on the latency. -/
theorem commandInFlightEnds : Obligations.CommandInFlightEnds := fun s hbusy hpend hhost =>
  ends_of_awaits s.latency ⟨hbusy, hpend, rfl, rfl⟩ hhost

end Sys2Proof.Machine
end
